-- ==== Sys2Proof/Word.lean ====
section
/-! DEFINITION. The 16-bit word of the car line (chapter 11: "16-bit words numbered from 0 and bits
numbered from 15 (most significant) to 0") and the narrower bit fields the manual names. -/

namespace Sys2Proof

/-- A 16-bit word of a cell, of a slot record or of a table entry. -/
abbrev Word := BitVec 16

/-- An 8-bit field: a tag, a command code, a press counter, a bitmap over the eight door zones. -/
abbrev Byte := BitVec 8

/-- A 6-bit field: a slot number, a cycle number, a node number (0 to 63 each). -/
abbrev Six := BitVec 6

end Sys2Proof
end

