-- ==== Sys2Proof/Syntax.lean ====
section
/-! DEFINITION. The commands of the TC-24: one constructor per row of spec/opcode_table.json, with
the operands the rules give the row, and the names those operands are written with. -/

namespace Sys2Proof

/-- The two rings of the car line (chapter 1). -/
inductive Lane where
  | A | B
  deriving DecidableEq, Repr, Inhabited

/-- The two sound channels of the sound unit (R151). -/
inductive Channel where
  | bell | chime
  deriving DecidableEq, Repr, Inhabited

/-- The levels on the discrete input lines of section 11.6, as they stand at the event that carries
them: `key` is KEY[1:0], `aft` is END (low FORE, high AFT), `node` is the NODE[5:0] strap; the
others are high when true. RESET_N is in `ResetLines`. -/
structure Lines where
  key     : BitVec 2
  aft     : Bool
  node    : Six
  depot   : Bool
  bellBtn : Bool
  hornBtn : Bool
  ackBtn  : Bool
  lowAdh  : Bool
  deriving DecidableEq, Repr, Inhabited

/-- The levels of the discrete inputs at a power-on reset, with that of RESET_N: low at the beginning of the
reset, which holds the part in it, and high at its end (R193). -/
structure ResetLines extends Lines where
  resetN : Bool
  deriving DecidableEq, Repr, Inhabited

/-- The pieces of work that a cycle start presents to the blocks (R9). "The line interface does not
order their work": a cycle start carries the order in which they are taken. -/
inductive Work where
  /-- the line interface presents the loss of the line or its end to the cab authority (R18) -/
  | lineLoss
  /-- the cab authority samples KEY and END (R44, R45) -/
  | cabDesk
  /-- the cab authority derives the other-cab view (R46) -/
  | cabView
  /-- the cab authority counts the activation stage (R50, R51, R53, R54) -/
  | cabStage
  /-- the cab authority counts the scrub interval or checks one table (R64) -/
  | cabScrub
  /-- the traction unit's work of R79 -/
  | traction
  /-- the junction unit's work of R110 -/
  | junction
  /-- the stop unit tests the DOORS row (R133) -/
  | stop
  /-- the sound unit's work of R153 -/
  | sound
  /-- the table store samples DEPOT and completes the outstanding transfer (R171, R177) -/
  | tableStore
  deriving DecidableEq, Repr, Inhabited

/-- The six tables (R168), in the order of their codes 0 to 5 (section 11.4). -/
inductive TableId where
  | slot | param | envelope | cadence | marker | route
  deriving DecidableEq, Repr, Inhabited

/-- The treatment a slot table entry gives to cells in its slot (R21). -/
inductive Disposition where
  | pass | observe | take | rewrite | own
  deriving DecidableEq, Repr, Inhabited

/-- Which lane's copy is stored (R21). -/
inductive LaneSelect where
  | A | B | firstValid | none
  deriving DecidableEq, Repr, Inhabited

/-- The received and the owned functions of R21 and R24. -/
inductive Fn where
  | generic | handle | speed | marker | routeSelect | pointStatus | stopButton | doorStatus
  | emergency | otherCab | mgmtIn
  | demandOut | pointRequestOut | cabStatusOut | signOut | doorOut | chimeOut | mgmtOut
  deriving DecidableEq, Repr, Inhabited

/-- What a reading of a marker does (R105). -/
inductive Role where
  | request | commit | clear
  deriving DecidableEq, Repr, Inhabited

/-- The hold exit mode, PARAM hold_exit (R60, R85). -/
inductive HoldMode where
  | fast | slow
  deriving DecidableEq, Repr, Inhabited

/-- One constructor per row of spec/opcode_table.json.

`tag` is the tag of the management cell (R183). The argument words of a management command are those
of section 11.4; `words` and `values` are words 3 to 7 of the cell. `order` is the order in which a
cycle start's works are taken; works it does not name follow in a default order. -/
inductive Instr where
  | powerOnReset (lines : ResetLines)
  | cellArrival (lane : Lane) (words : List Word) (lines : Lines) (order : List Work)
  | substituteCycleStart (lines : Lines) (order : List Work)
  | slotOpening
  | laneDown
  | laneUp
  | otherCabTimeout
  | activationAttempt
  | settleComplete
  | brakeTimeout
  | entryToActive
  | pendingExitTaken
  | scrubPassBegin
  | stabledExit
  | speedSourceStale
  | speedLockAcquired
  | selectionTimeout
  | requestTimeout (pos : Fin 4)
  | doorStatusStale
  | phaseEnd (ch : Channel)
  | stepEnd (ch : Channel)
  | hornMinReached
  | hornStuck
  | transferCompletion
  | status (tag : Byte) (page : Word)
  | clearStatus (tag : Byte)
  | writeStage (tag : Byte) (offset count : Byte) (words : List Word)
  | transfer (tag : Byte) (table index : Word)
  | readEntry (tag : Byte) (table index offset : Word)
  | envelopePointer (tag : Byte) (breakpoint : Word)
  | envelopeData (tag : Byte) (count : Word) (values : List Word)
  | lockSetup (tag : Byte)
  | lock (tag : Byte) (table : Word)
  | unlock (tag : Byte) (table : Word)
  | lockDown (tag : Byte) (table : Word)
  | setRestriction (tag : Byte) (action value : Word)
  | readRecord (tag : Byte) (index page : Word)
  | stable (tag : Byte)
  | wake (tag : Byte)
  | restart (tag : Byte) (lines : Lines)
  | unknownCommand (tag : Byte) (code : Byte)
  deriving DecidableEq, Repr

end Sys2Proof
end

