-- ==== Sys2Proof/Decode.lean ====
section
/-! DEFINITION. The table's own bits. No row of spec/opcode_table.json gives bits (each has an empty
"fields" and no "fixed"), so no word spells a command. The command cells of the car line are read by
`Sys2Proof.Machine.mgmtStore` (Machine/ManagementUnit.lean). -/

namespace Sys2Proof

/-- The command a table word spells: none, for no row of the table gives bits. -/
def decodeTableWord (_nbits _w : Nat) : Option Instr := none

end Sys2Proof
end

