-- ==== Sys2Proof/Config.lean ====
section
/-! DEFINITION. The free values of the model. Every one of them concerns a table word that no write
gate lets in (R175) and that can only stand in a table whose storage is damaged (R170): the manual
gives such a code no meaning, so nothing constrains what is read from it. See
notes/assumptions/3.md. -/

namespace Sys2Proof

/-- The disposition read from a disposition code 5 to 7 (R21, section 11.5 name only 0 to 4). -/
opaque Config.damagedDisposition : Nat → Disposition

/-- The function read from a function code that section 11.5 does not name. -/
opaque Config.damagedFn : Nat → Fn

/-- Whether an entry with cycle repeat 0 (outside R21) matches a cycle, given the cycle and the base. -/
opaque Config.damagedFilter : Nat → Nat → Bool

/-- The role read from role code 0 of a non-empty marker entry (section 11.5 names 1 to 3). -/
opaque Config.damagedRole : Nat → Role

/-- The hold exit mode read from a hold_exit word other than 0 and 1 (section 11.5). -/
opaque Config.damagedHoldExit : Word → HoldMode

/-- Whether a departure_warning word other than 0 and 1 (section 11.5) reads as ON. -/
opaque Config.damagedDeparture : Word → Bool

/-- The on and the off count of a cadence step numbered 32 or more, which a pattern reaches whose first
step and step count pass 32 together (R149 has steps 0 to 31, R150 bounds the sum at 32). -/
opaque Config.damagedStep : Nat → Nat × Nat

/-- The traction and brake limits at a speed when the envelope's validity mark shows it valid and the
region used holds no breakpoint (R92 gives limits for a region of one breakpoint or more). -/
opaque Config.damagedLimits : Nat → Nat × Nat

end Sys2Proof
end

