-- ==== Sys2Proof/Machine/Bits.lean ====
section
/-! DEFINITION. Bit fields of words, and the word lists of payloads and table entries (section 11). -/

namespace Sys2Proof.Machine

/-- The unsigned integer in bits `lo + n - 1` to `lo` of a word. -/
def bitsOf (w : Word) (lo n : Nat) : Nat := w.toNat / 2 ^ lo % 2 ^ n

/-- One bit of a word. -/
def bitAt (w : Word) (i : Nat) : Bool := w.getLsbD i

/-- A word from an unsigned integer, mod 65536. -/
def word (n : Nat) : Word := BitVec.ofNat 16 n

/-- A word from a signed integer in two's complement (chapter 11). -/
def signedWord (i : Int) : Word := BitVec.ofInt 16 i

/-- 1 for true, 0 for false: a flag's contribution to a packed word, before its place value. -/
def bit (b : Bool) : Nat := if b then 1 else 0

/-- Bits 15 to 8 of a word. -/
def highByte (w : Word) : Byte := w.extractLsb' 8 8

/-- Bits 7 to 0 of a word. -/
def lowByte (w : Word) : Byte := w.extractLsb' 0 8

/-- The first `n` words of a list, filled out with zero words to `n` (R32, R36). -/
def padTo : Nat → List Word → List Word
  | 0, _ => []
  | n + 1, [] => 0 :: padTo n []
  | n + 1, w :: ws => w :: padTo n ws

/-- Word `i` of a payload or entry, 0 where there is none. -/
def wordAt (ws : List Word) (i : Nat) : Word := ws.getD i 0

/-- `image` written over the words from `start` onward. -/
def overwrite (ws : List Word) (start : Nat) (image : List Word) : List Word :=
  ws.take start ++ image ++ ws.drop (start + image.length)

/-- Every member of a vector mapped. -/
def mapVec {α β : Type} {n : Nat} (f : α → β) (v : Vector α n) : Vector β n :=
  ⟨⟨v.toList.map f⟩, by simp⟩

end Sys2Proof.Machine
end

