-- ==== Sys2Proof/Machine/Defaults.lean ====
section
/-! DEFINITION. The PARAM table's content after power-on reset (R169, R181) and the sum of a table's
words (R170). -/

namespace Sys2Proof.Machine

/-- The sum of a table's entry words modulo 65536 (R170). -/
def tableSum (ws : List Word) : Word := ws.foldl (· + ·) 0

/-- The defaults of R169, in its order; hold_exit FAST is 0 and departure_warning ON is 1
(section 11.5). -/
def paramDefaults : List Word :=
  [700, 30, 40, 60, 700, 500, 400, 3, 3, 4, 50, 8, 32, 0, 256, 5, 255, 1, 10, 1000, 0, 16, 150, 1000]

end Sys2Proof.Machine
end

