-- ==== Sys2Proof/Machine/State.lean ====
section
/-! DEFINITION. The state of the part: one structure per block of the block overview (00_scope.md),
the discrete inputs, the cells driven on the lane outputs, and the queue of commands that wait. -/

namespace Sys2Proof.Machine

/-! ### Line interface (chapter 1) -/

/-- R2. -/
inductive LineState where
  | unsynchronised | synchronised | freeRunning
  deriving DecidableEq, Repr, Inhabited

/-- What the line interface keeps for one lane: its state and its runs (R17), its error count (R16),
its credit in the beacon record (R3, R4), and whether a cell has been taken on it in the open slot
(R14, R34). -/
structure LaneState where
  up      : Bool
  beacons : Nat
  misses  : Nat
  errors  : Nat
  credit  : Bool
  handed  : Bool
  deriving DecidableEq, Repr, Inhabited

/-- R2, R3, R6, R10, R19. -/
structure LineInterface where
  state      : LineState
  counter    : Six
  slotOpen   : Option Six
  timerArmed : Bool
  laneA      : LaneState
  laneB      : LaneState
  deriving DecidableEq, Repr, Inhabited

/-! ### Slot engine (chapter 2) -/

/-- The fields of a slot table entry (R21). -/
structure SlotEntry where
  enable      : Bool
  slot        : Six
  base        : Nat
  rep         : Nat
  select      : LaneSelect
  disposition : Disposition
  fn          : Fn
  single      : Bool
  len         : Nat
  deriving DecidableEq, Repr, Inhabited

/-- The result on a lane of the latest opening an entry governed (section 2.4, R34). -/
inductive LaneOutcome where
  | valid | invalid | silent | collision
  deriving DecidableEq, Repr, Inhabited

/-- The four kinds of cell (section 1.5). -/
inductive Kind where
  | beacon | data | null | mgmt
  deriving DecidableEq, Repr, Inhabited

/-- A slot record (section 2.4). `stamp` is the model's own: it orders the stores, for the tie of R24
("of records of equal least age, the one stored last is read"). -/
structure SlotRecord where
  payload      : List Word
  length       : Nat
  origin       : Option Lane
  cycle        : Six
  age          : Nat
  new          : Bool
  lost         : Bool
  lenMismatch  : Bool
  laneDisagree : Bool
  collision    : Bool
  outcomeA     : LaneOutcome
  outcomeB     : LaneOutcome
  lastSent     : Option (List Word)
  stamp        : Nat
  deriving DecidableEq, Repr, Inhabited

/-- A cleared record (R35, R42). -/
def SlotRecord.cleared : SlotRecord where
  payload := List.replicate 8 0
  length := 0
  origin := none
  cycle := 0
  age := 255
  new := false
  lost := false
  lenMismatch := false
  laneDisagree := false
  collision := false
  outcomeA := .silent
  outcomeB := .silent
  lastSent := none
  stamp := 0

/-- The first valid copy taken in the opening in progress (R28). -/
structure PairingMark where
  kind    : Kind
  length  : Nat
  payload : List Word
  deriving DecidableEq, Repr, Inhabited

/-- The governing entry of the opening in progress, as it stood at the opening (R22), with the index
of its record. -/
structure Governing where
  index : Fin 82
  entry : SlotEntry
  deriving DecidableEq, Repr, Inhabited

/-- The slot table itself is among the tables of the table store. `stores` counts the stores made: the
model's own, see `SlotRecord.stamp`. -/
structure SlotEngine where
  records   : Vector SlotRecord 82
  mark      : Option PairingMark
  governing : Option Governing
  stores    : Nat
  deriving DecidableEq, Repr

/-! ### Cab authority (chapter 3) -/

/-- The five cab states (section 3.1); the other-cab view has the same five values (R46). -/
inductive CabState where
  | inactive | activating | active | hold | stabled
  deriving DecidableEq, Repr, Inhabited

inductive PendingExit where
  | none | hold | off | wake | drive
  deriving DecidableEq, Repr, Inhabited

inductive Stage where
  | none | settle | tableCheck | brakeTest | speedLock
  deriving DecidableEq, Repr, Inhabited

inductive FaultCause where
  | none | structure | sum | tableChanged | brakeTimeout | lineLost
  deriving DecidableEq, Repr, Inhabited

/-- The activation fault record (R56). -/
structure FaultRecord where
  cause : FaultCause
  stage : Stage
  table : Option TableId
  deriving DecidableEq, Repr, Inhabited

inductive Key where
  | off | hold | drive
  deriving DecidableEq, Repr, Inhabited

/-- The END strap (R45). -/
inductive CabEnd where
  | fore | aft
  deriving DecidableEq, Repr, Inhabited

/-- A discrete line under the two-sample rule (R44): the recognised value, and the previous sample
where there is one. -/
structure Recogniser (α : Type) where
  value : α
  prev  : Option α
  deriving DecidableEq, Repr, Inhabited

/-- Section 3.1, R66. `scrubPass` holds the table that the pass in progress checks next. -/
structure CabAuthority where
  state        : CabState
  pending      : PendingExit
  stage        : Stage
  table        : Option TableId
  count        : Nat
  settleLength : Nat
  driveRequest : Bool
  fault        : FaultRecord
  key          : Recogniser Key
  cabEnd       : Recogniser CabEnd
  view         : CabState
  holdMode     : HoldMode
  scrubCount   : Nat
  scrubPass    : Option TableId
  deriving DecidableEq, Repr, Inhabited

/-! ### Speed cap unit (chapter 4) -/

/-- The eleven rows of the cap table, in the order of section 4.2. -/
inductive Row where
  | line | cab | doors | departure | speedLock | restrict | overflow | junction (pos : Fin 4)
  deriving DecidableEq, Repr

/-- The cap table (R68): a row is absent (`none`) or present with its value. The LINE row "is never
withdrawn" (R73), so it has no absent state. -/
structure CapTable where
  line      : Nat
  cab       : Option Nat
  doors     : Option Nat
  departure : Option Nat
  speedLock : Option Nat
  restrict  : Option Nat
  overflow  : Option Nat
  junctions : Vector (Option Nat) 4
  deriving DecidableEq, Repr

/-! ### Traction unit (chapter 5) -/

/-- The reason carried with D (R99); `none` is code 0. -/
inductive Reason where
  | none | activating | hold | emergency | handle | staleHandle | cut | forced | envelopeT | envelopeB
  | ramp
  deriving DecidableEq, Repr, Inhabited

/-- The DEMAND_OUT content (R100): D, the reason, the cap source, P and v_eff as used in the latest
evaluation. -/
structure Demand where
  d      : Int
  reason : Reason
  source : Row
  p      : Nat
  v      : Nat
  deriving DecidableEq, Repr

/-- Section 5.1, R103. The speed lock is LOCKED when `locked`; the supervision mode is SUSPENDED when
`suspended`. -/
structure Traction where
  vEff          : Nat
  locked        : Bool
  lockCount     : Nat
  prevDistance  : Option Word
  latch         : Bool
  episode       : Bool
  envelopeAlarm : Bool
  lowAdh        : Recogniser Bool
  suspended     : Bool
  dPrev         : Int
  demand        : Demand
  deriving DecidableEq, Repr

/-! ### Junction unit (chapter 6) -/

inductive JunctionFault where
  | timeout | noRoute | commitUnconfirmed | lockLost
  deriving DecidableEq, Repr, Inhabited

inductive JunctionState where
  | requested | confirmed | committed | fault (cause : JunctionFault)
  deriving DecidableEq, Repr, Inhabited

/-- An open junction record (R111). Bit `i` of `confirmed` is set while point setting `i` of the route
is in the confirmation set. -/
structure JunctionRecord where
  junction  : Six
  route     : BitVec 4
  state     : JunctionState
  count     : Nat
  confirmed : BitVec 3
  distance  : Nat
  setSent   : Bool
  deriving DecidableEq, Repr, Inhabited

/-- An entry of the release queue (R124). -/
structure Release where
  address : Byte
  route   : BitVec 4
  deriving DecidableEq, Repr, Inhabited

/-- R111, R124, R125, R106, R109, R110, R130. -/
structure JunctionUnit where
  list          : Vector (Option JunctionRecord) 4
  queue         : List Release
  arbiter       : Fin 4
  lastMarker    : Option Byte
  selection     : BitVec 4
  selectionFrom : Option (Fin 82)
  ackBtn        : Recogniser Bool
  deriving DecidableEq, Repr

/-! ### Stop unit (chapter 7) -/

inductive TripPhase where
  | running | atStop
  deriving DecidableEq, Repr, Inhabited

/-- The assistance flag of one zone (R138). -/
inductive Assistance where
  | clear | waitingOpen | opened
  deriving DecidableEq, Repr, Inhabited

/-- The door status and the entry whose record gave it (R132). -/
structure DoorStatus where
  closed   : Byte
  released : Byte
  source   : Fin 82
  deriving DecidableEq, Repr, Inhabited

/-- R132, R134, R137 to R140, R147. Bit `z` of a bitmap is zone `z`. -/
structure StopUnit where
  phase       : TripPhase
  request     : Bool
  push        : Byte
  doorOpen    : Byte
  assistance  : Vector Assistance 8
  lastStop    : Vector (Option Byte) 8
  lastAssist  : Vector (Option Byte) 8
  door        : Option DoorStatus
  deriving DecidableEq, Repr

/-! ### Sound unit (chapter 8) -/

/-- The five sound sources (R151). -/
inductive Source where
  | driverBell | depart | alarm | assist | stop
  deriving DecidableEq, Repr, Inhabited

inductive SourceState where
  | idle | waiting | playing | suspended
  deriving DecidableEq, Repr, Inhabited

/-- The four fields of a pattern of the cadence table (R150). -/
structure Pattern where
  first   : Nat
  steps   : Nat
  repeats : Nat
  tone    : Nat
  deriving DecidableEq, Repr, Inhabited

/-- A sound source's state and progress (section 8.2). `offCount` is the off count of the step in
progress, which governs the step to its end (R149). `begun` is the model's own: the step in progress began
at the latest cycle start or after it, so that it has not been counted yet (R153). -/
structure SoundSource where
  state       : SourceState
  pattern     : Pattern
  offset      : Nat
  phaseOn     : Bool
  phaseCount  : Nat
  offCount    : Nat
  passesLeft  : Nat
  releaseMark : Bool
  begun       : Bool
  deriving DecidableEq, Repr, Inhabited

/-- A source in IDLE keeps no progress. -/
def SoundSource.idle : SoundSource where
  state := .idle
  pattern := { first := 0, steps := 0, repeats := 0, tone := 0 }
  offset := 0
  phaseOn := false
  phaseCount := 0
  offCount := 0
  passesLeft := 0
  releaseMark := false
  begun := false

inductive HornState where
  | off | on | stuck
  deriving DecidableEq, Repr, Inhabited

/-- The sources, the horn (R163), the three buttons (R153) and the four alarm conditions (R164). -/
structure Sound where
  driverBell    : SoundSource
  depart        : SoundSource
  alarm         : SoundSource
  assist        : SoundSource
  stop          : SoundSource
  horn          : HornState
  hornCount     : Nat
  bellBtn       : Recogniser Bool
  hornBtn       : Recogniser Bool
  ackBtn        : Recogniser Bool
  junctionFault : Bool
  overflow      : Bool
  forced        : Bool
  envelope      : Bool
  deriving DecidableEq, Repr

/-! ### Table store (chapter 9) -/

inductive LockState where
  | unlocked | locked | lockedDown
  deriving DecidableEq, Repr, Inhabited

/-- One of the six tables: its entry words, its reference sum and FAULTY mark (R170), its lock (R173). -/
structure Table where
  words  : List Word
  ref    : Word
  faulty : Bool
  lock   : LockState
  deriving DecidableEq, Repr, Inhabited

/-- A TRANSFER accepted and not yet completed (R176), with the tag its answer carries (R177). -/
structure Transfer where
  table : TableId
  index : Nat
  tag   : Byte
  deriving DecidableEq, Repr, Inhabited

/-- The staging state with the transfers outstanding (R176): `pending back front`. -/
inductive Staging where
  | free
  | busy (back : Transfer)
  | pending (back front : Transfer)
  deriving DecidableEq, Repr, Inhabited

/-- The field the envelope pointer names (R178). -/
inductive EnvelopeField where
  | s | t | b
  deriving DecidableEq, Repr, Inhabited

/-- R168, R171, R172, R176, R178, R181. `held` is the holding triple's held values, the s first.
`envelopeValid` is the validity mark of R91. -/
structure TableStore where
  slot          : Table
  param         : Table
  envelope      : Table
  cadence       : Table
  marker        : Table
  route         : Table
  armed         : Bool
  depot         : Recogniser Bool
  front         : List Word
  back          : List Word
  staging       : Staging
  pointer       : Fin 16
  field         : EnvelopeField
  held          : List Word
  envelopeValid : Bool
  deriving DecidableEq, Repr, Inhabited

/-! ### Management unit (chapter 10) -/

/-- The 26 sticky flags, in the order that numbers them 0 to 25 (R186, section 11.4). -/
inductive Flag where
  | cycleSlip | laneDegraded | lineLost | laneDisagree
  | handleRange | handleStale | speedRange | distJump | emergStale
  | cabConflict | actFault | keyMoving
  | markerMissed | unknownMarker | strayMarker | routeLocked | lockLostUnder | releaseLost
  | releaseDropped
  | envelopeInvalid | hornStuck | tableFault | tablesLost | sequence | responseLost | overspeed
  deriving DecidableEq, Repr, Inhabited

/-- The results of R184, in the order of their codes. -/
inductive Result where
  | ok | busy | overrun | locked | unsafeState | range | sequence | inUse | unknown
  deriving DecidableEq, Repr, Inhabited

/-- A response (R184): the part's node number, the command code as received, the tag, the result and
five data words. -/
structure Response where
  node   : Six
  code   : Byte
  tag    : Byte
  result : Result
  data   : List Word
  deriving DecidableEq, Repr, Inhabited

/-- The status record, bit `n` for the flag numbered `n`, and the response queue, oldest first. -/
structure Management where
  flags : BitVec 26
  queue : List Response
  deriving DecidableEq, Repr, Inhabited

/-! ### The part -/

/-- Everything the spec gives the part. `resetN` is the level of RESET_N: low while the part is held in
power-on reset (R193). `lines` holds the levels of the discrete inputs at the latest
event that carried them. `sentA` and `sentB` hold the cells driven on LANE_A_OUT and LANE_B_OUT since
power-on reset, newest first. -/
structure Part where
  resetN   : Bool
  node     : Six
  lines    : Lines
  line     : LineInterface
  slots    : SlotEngine
  cab      : CabAuthority
  caps     : CapTable
  traction : Traction
  junction : JunctionUnit
  stop     : StopUnit
  sound    : Sound
  tables   : TableStore
  mgmt     : Management
  sentA    : List (List Word)
  sentB    : List (List Word)
  deriving DecidableEq, Repr

/-- The part, and the commands that wait for it, first in, first out. -/
structure State where
  part    : Part
  pending : List Instr
  deriving DecidableEq, Repr

/-- Closed and empty: the manual gives every command and every event an effect in every state, and
names nothing that stops the part, so no meaning raises a fault (INVENTORY.md, Faults). Safe. -/
inductive Fault where
  deriving DecidableEq, Repr

/-- Why a step has no meaning. -/
inductive Refusal where
  /-- Raised by no meaning: exec's own answer for a row that has no meaning yet. Safe. -/
  | notModelled (mnemonic : String)
  deriving DecidableEq, Repr

/-! ### Power-on reset -/

/-- R19: a lane after power-on reset. -/
def LaneState.reset : LaneState where
  up := false
  beacons := 0
  misses := 0
  errors := 0
  credit := false
  handed := false

/-- R19. -/
def LineInterface.reset : LineInterface where
  state := .unsynchronised
  counter := 0
  slotOpen := none
  timerArmed := false
  laneA := LaneState.reset
  laneB := LaneState.reset

/-- R42. -/
def SlotEngine.reset : SlotEngine where
  records := Vector.replicate 82 SlotRecord.cleared
  mark := none
  governing := none
  stores := 0

/-- R66, with the strap value that END takes at the reset (R45). -/
def CabAuthority.reset (strap : CabEnd) : CabAuthority where
  state := .inactive
  pending := .none
  stage := .none
  table := none
  count := 0
  settleLength := 0
  driveRequest := false
  fault := { cause := .none, stage := .none, table := none }
  key := { value := .off, prev := none }
  cabEnd := { value := strap, prev := none }
  view := .inactive
  holdMode := .fast
  scrubCount := 0
  scrubPass := none

/-- R76, R77: LINE at the line_cap given, CAB and DOORS at 0, every other row absent. -/
def CapTable.reset (lineCap : Nat) : CapTable where
  line := lineCap
  cab := some 0
  doors := some 0
  departure := none
  speedLock := none
  restrict := none
  overflow := none
  junctions := Vector.replicate 4 none

/-- R103. -/
def Traction.reset : Traction where
  vEff := 0
  locked := false
  lockCount := 0
  prevDistance := none
  latch := false
  episode := false
  envelopeAlarm := false
  lowAdh := { value := false, prev := none }
  suspended := false
  dPrev := -1000
  demand := { d := -1000, reason := .none, source := .cab, p := 0, v := 0 }

/-- R130. -/
def JunctionUnit.reset : JunctionUnit where
  list := Vector.replicate 4 none
  queue := []
  arbiter := 0
  lastMarker := none
  selection := 0
  selectionFrom := none
  ackBtn := { value := false, prev := none }

/-- R147. -/
def StopUnit.reset : StopUnit where
  phase := .running
  request := false
  push := 0
  doorOpen := 0
  assistance := Vector.replicate 8 .clear
  lastStop := Vector.replicate 8 none
  lastAssist := Vector.replicate 8 none
  door := none

/-- R166. -/
def Sound.reset : Sound where
  driverBell := SoundSource.idle
  depart := SoundSource.idle
  alarm := SoundSource.idle
  assist := SoundSource.idle
  stop := SoundSource.idle
  horn := .off
  hornCount := 0
  bellBtn := { value := false, prev := none }
  hornBtn := { value := false, prev := none }
  ackBtn := { value := false, prev := none }
  junctionFault := false
  overflow := false
  forced := false
  envelope := false

/-- R181: a table whose reference sum is the sum of its words, LOCKED and not FAULTY. -/
def Table.reset (words : List Word) : Table where
  words := words
  ref := tableSum words
  faulty := false
  lock := .locked

/-- R181. The table lengths are those of R168. -/
def TableStore.reset : TableStore where
  slot := Table.reset (List.replicate 240 0)
  param := Table.reset paramDefaults
  envelope := Table.reset (List.replicate 48 0)
  cadence := Table.reset (List.replicate 42 0)
  marker := Table.reset (List.replicate 256 0)
  route := Table.reset (List.replicate 1280 0)
  armed := false
  depot := { value := false, prev := none }
  front := List.replicate 24 0
  back := List.replicate 24 0
  staging := .free
  pointer := 0
  field := .s
  held := []
  envelopeValid := false

/-- R190, R181: every flag clear but TABLES_LOST, which is numbered 22; no response waits. -/
def Management.reset : Management where
  flags := 1#26 <<< 22
  queue := []

/-- Every input line low, as an open input reads (section 11.6: "internal pull-downs"). -/
def Lines.low : Lines where
  key := 0
  aft := false
  node := 0
  depot := false
  bellBtn := false
  hornBtn := false
  ackBtn := false
  lowAdh := false

/-- The machine right after power-on reset, RESET_N high and every other input line low: the NODE strap reads 0, which
gives node number 62 (R193), END reads FORE (R45), and no command waits. -/
def State.reset : State where
  part := {
    resetN := true
    node := 62
    lines := Lines.low
    line := LineInterface.reset
    slots := SlotEngine.reset
    cab := CabAuthority.reset .fore
    caps := CapTable.reset 700
    traction := Traction.reset
    junction := JunctionUnit.reset
    stop := StopUnit.reset
    sound := Sound.reset
    tables := TableStore.reset
    mgmt := Management.reset
    sentA := []
    sentB := [] }
  pending := []

end Sys2Proof.Machine
end

