-- ==== Sys2Proof/Machine/Flags.lean ====
section
/-! DEFINITION. The sticky flags of the status record (R186). -/

namespace Sys2Proof.Machine

/-- The number of a flag: 0 to 25 in the order of the table of R186 (section 11.4). -/
def flagNumber : Flag → Nat
  | .cycleSlip => 0 | .laneDegraded => 1 | .lineLost => 2 | .laneDisagree => 3
  | .handleRange => 4 | .handleStale => 5 | .speedRange => 6 | .distJump => 7 | .emergStale => 8
  | .cabConflict => 9 | .actFault => 10 | .keyMoving => 11
  | .markerMissed => 12 | .unknownMarker => 13 | .strayMarker => 14 | .routeLocked => 15
  | .lockLostUnder => 16 | .releaseLost => 17 | .releaseDropped => 18
  | .envelopeInvalid => 19 | .hornStuck => 20 | .tableFault => 21 | .tablesLost => 22
  | .sequence => 23 | .responseLost => 24 | .overspeed => 25

/-- The status record with a flag set; a set of a flag already set is not a change (R186). -/
def withFlag (flags : BitVec 26) (f : Flag) : BitVec 26 := flags ||| (1#26 <<< flagNumber f)

/-- Whether a flag is set in the status record. -/
def hasFlag (flags : BitVec 26) (f : Flag) : Bool := flags.getLsbD (flagNumber f)

/-- Sets a sticky flag. -/
def setFlag (f : Flag) (p : Part) : Part :=
  { p with mgmt := { p.mgmt with flags := withFlag p.mgmt.flags f } }

/-- Sets a sticky flag where a condition holds. -/
def setFlagIf (c : Bool) (f : Flag) (p : Part) : Part :=
  { p with mgmt := { p.mgmt with flags := if c then withFlag p.mgmt.flags f else p.mgmt.flags } }

/-- CLEAR_STATUS and RESTART clear all 26 (R186, R189). -/
def clearFlags (p : Part) : Part := { p with mgmt := { p.mgmt with flags := 0 } }

end Sys2Proof.Machine
end

