-- ==== Sys2Proof/Machine/Operands.lean ====
section
/-! DEFINITION. The operand forms: the cell and its check (R12, R13, section 11.1), the codes of
chapter 11, the entries of the six tables read from their words (section 11.5), and the parameters of
R169. -/

namespace Sys2Proof.Machine

/-! ### The check (R12) -/

/-- One bit into the CRC register. -/
def crcBit (reg : Word) (d : Bool) : Word :=
  if reg.msb != d then (reg <<< 1) ^^^ 0x1021#16 else reg <<< 1

/-- The `n` low bits of a byte into the CRC register, most significant first. -/
def crcBits (reg : Word) (b : Byte) : Nat → Word
  | 0 => reg
  | n + 1 => crcBits (crcBit reg (b.getLsbD n)) b n

/-- A byte into the CRC register, most significant bit first. -/
def crcByte (reg : Word) (b : Byte) : Word := crcBits reg b 8

/-- The check of the words given: each word high byte first, from all ones, no final inversion. -/
def crc (ws : List Word) : Word :=
  ws.foldl (fun reg w => crcByte (crcByte reg (highByte w)) (lowByte w)) 0xFFFF#16

/-! ### Cells (section 11.1) -/

/-- The fields of an arrived cell. -/
structure Cell where
  slot    : Six
  cycle   : Six
  kind    : Kind
  node    : Six
  length  : Nat
  payload : List Word
  check   : Word
  deriving DecidableEq, Repr, Inhabited

/-- BEACON 0, DATA 1, NULL 2, MGMT 3. -/
def kindCode : Kind → Nat
  | .beacon => 0 | .data => 1 | .null => 2 | .mgmt => 3

def kindOf : Nat → Kind
  | 0 => .beacon | 1 => .data | 2 => .null | _ => .mgmt

/-- The fields of the words that arrived, where they reach the two header words and a check word: the
last word is taken as the check and those between as the payload. -/
def parseCell : List Word → Option Cell
  | h0 :: h1 :: w :: ws =>
    some {
      slot := h0.extractLsb' 10 6
      cycle := h0.extractLsb' 4 6
      kind := kindOf (bitsOf h0 2 2)
      node := h1.extractLsb' 10 6
      length := bitsOf h1 0 4
      payload := (w :: ws).dropLast
      check := (w :: ws).getLast (List.cons_ne_nil w ws) }
  | _ => none

/-- The integrity tests of R13 on the words that arrived, where `c` is what they parse to. -/
def passesIntegrity (words : List Word) (c : Cell) : Bool :=
  crc words.dropLast == c.check && c.length == c.payload.length && decide (c.length ≤ 8)
    && (c.kind != .null || c.length == 0)

/-- A cell the part produces: unassigned header bits 0 (R191), with its check (R12). -/
def makeCell (slot cycle : Six) (kind : Kind) (node : Six) (payload : List Word) : List Word :=
  let body := word (slot.toNat * 1024 + cycle.toNat * 16 + kindCode kind * 4)
    :: word (node.toNat * 1024 + payload.length) :: payload
  body ++ [crc body]

/-! ### Codes (chapter 11) -/

/-- INACTIVE 0, ACTIVATING 1, ACTIVE 2, HOLD 3, STABLED 4. -/
def cabStateCode : CabState → Nat
  | .inactive => 0 | .activating => 1 | .active => 2 | .hold => 3 | .stabled => 4

/-- A state field of none of the five codes gives ACTIVE (R46, R192). -/
def cabStateOf : Nat → CabState
  | 0 => .inactive | 1 => .activating | 2 => .active | 3 => .hold | 4 => .stabled | _ => .active

def pendingCode : PendingExit → Nat
  | .none => 0 | .hold => 1 | .off => 2 | .wake => 3 | .drive => 4

def stageCode : Stage → Nat
  | .none => 0 | .settle => 1 | .tableCheck => 2 | .brakeTest => 3 | .speedLock => 4

def causeCode : FaultCause → Nat
  | .none => 0 | .structure => 1 | .sum => 2 | .tableChanged => 3 | .brakeTimeout => 4
  | .lineLost => 5

def keyCode : Key → Nat
  | .off => 0 | .hold => 1 | .drive => 2

/-- KEY[1:0]: 00 OFF, 01 HOLD, 10 DRIVE, 11 read as OFF (section 11.6, R44). -/
def keyOf (wires : BitVec 2) : Key :=
  match wires.toNat with
  | 1 => .hold
  | 2 => .drive
  | _ => .off

def endCode : CabEnd → Nat
  | .fore => 0 | .aft => 1

/-- END low FORE, high AFT (section 11.6). -/
def endOf (high : Bool) : CabEnd := if high then .aft else .fore

def lineStateCode : LineState → Nat
  | .unsynchronised => 0 | .synchronised => 1 | .freeRunning => 2

def tableCode : TableId → Nat
  | .slot => 0 | .param => 1 | .envelope => 2 | .cadence => 3 | .marker => 4 | .route => 5

/-- The table an argument word names, if it names one of the six (section 11.4). -/
def tableOf (w : Word) : Option TableId :=
  match w.toNat with
  | 0 => some .slot | 1 => some .param | 2 => some .envelope | 3 => some .cadence
  | 4 => some .marker | 5 => some .route | _ => none

/-- "Where no table is named, the table field carries 15" (section 11.4). -/
def tableField : Option TableId → Nat
  | none => 15
  | some t => tableCode t

/-- The code of a row of the cap table: its order in section 4.2. -/
def rowCode : Row → Nat
  | .line => 0 | .cab => 1 | .doors => 2 | .departure => 3 | .speedLock => 4 | .restrict => 5
  | .overflow => 6 | .junction pos => 7 + pos.val

/-- The reason codes of R99. -/
def reasonCode : Reason → Nat
  | .none => 0 | .activating => 1 | .hold => 2 | .emergency => 3 | .handle => 4 | .staleHandle => 5
  | .cut => 6 | .forced => 7 | .envelopeT => 8 | .envelopeB => 9 | .ramp => 10

def lockCode : LockState → Nat
  | .unlocked => 0 | .locked => 1 | .lockedDown => 2

def fieldCode : EnvelopeField → Nat
  | .s => 0 | .t => 1 | .b => 2

def outcomeCode : LaneOutcome → Nat
  | .valid => 0 | .invalid => 1 | .silent => 2 | .collision => 3

/-- The result codes of R184. -/
def resultCode : Result → Nat
  | .ok => 0 | .busy => 1 | .overrun => 2 | .locked => 3 | .unsafeState => 4 | .range => 5
  | .sequence => 6 | .inUse => 7 | .unknown => 8

/-- The function codes of section 11.5. -/
def fnCode : Fn → Nat
  | .generic => 0 | .handle => 1 | .speed => 2 | .marker => 3 | .routeSelect => 4
  | .pointStatus => 5 | .stopButton => 6 | .doorStatus => 7 | .emergency => 8 | .otherCab => 9
  | .mgmtIn => 10 | .demandOut => 16 | .pointRequestOut => 17 | .cabStatusOut => 18 | .signOut => 19
  | .doorOut => 20 | .chimeOut => 21 | .mgmtOut => 22

/-- The function a code names, if it names one (section 11.5). -/
def fnNamed : Nat → Option Fn
  | 0 => some .generic | 1 => some .handle | 2 => some .speed | 3 => some .marker
  | 4 => some .routeSelect | 5 => some .pointStatus | 6 => some .stopButton
  | 7 => some .doorStatus | 8 => some .emergency | 9 => some .otherCab | 10 => some .mgmtIn
  | 16 => some .demandOut | 17 => some .pointRequestOut | 18 => some .cabStatusOut
  | 19 => some .signOut | 20 => some .doorOut | 21 => some .chimeOut | 22 => some .mgmtOut
  | _ => none

/-- Whether a function is one of the owned functions (R21, R24). -/
def isOwned : Fn → Bool
  | .demandOut | .pointRequestOut | .cabStatusOut | .signOut | .doorOut | .chimeOut | .mgmtOut => true
  | _ => false

/-! ### Slot table entries (R21, section 11.5) -/

def dispositionOf : Nat → Disposition
  | 0 => .pass | 1 => .observe | 2 => .take | 3 => .rewrite | 4 => .own
  | n => Config.damagedDisposition n

def selectOf : Nat → LaneSelect
  | 0 => .A | 1 => .B | 2 => .firstValid | _ => .none

def fnOf (n : Nat) : Fn := (fnNamed n).getD (Config.damagedFn n)

/-- A slot table entry from its three words. -/
def slotEntryOf (w0 w1 w2 : Word) : SlotEntry where
  enable := bitAt w0 15
  slot := w0.extractLsb' 8 6
  disposition := dispositionOf (bitsOf w0 4 3)
  select := selectOf (bitsOf w0 0 2)
  base := bitsOf w1 8 6
  rep := bitsOf w1 0 7
  fn := fnOf (bitsOf w2 8 5)
  single := bitAt w2 7
  len := bitsOf w2 0 4

/-- The entries of the slot table in index order. -/
def slotEntries : List Word → List SlotEntry
  | w0 :: w1 :: w2 :: ws => slotEntryOf w0 w1 w2 :: slotEntries ws
  | _ => []

/-- An entry matches cycle c when the remainder of c divided by r equals b (R21). -/
def filterMatches (e : SlotEntry) (cycle : Six) : Bool :=
  if e.rep == 0 then Config.damagedFilter cycle.toNat e.base else cycle.toNat % e.rep == e.base

/-! ### Parameters (R169): the words of the PARAM table in its order -/

/-- PARAM word `i`. -/
def param (p : Part) (i : Nat) : Nat := (wordAt p.tables.param.words i).toNat

def lineCap (p : Part) : Nat := param p 0
def overspeedMargin (p : Part) : Nat := param p 1
def rampUp (p : Part) : Nat := param p 2
def rampDown (p : Part) : Nat := param p 3
def forceBrake (p : Part) : Nat := param p 4
def staleBrake (p : Part) : Nat := param p 5
def holdBrake (p : Part) : Nat := param p 6
def handleStale (p : Part) : Nat := param p 7
def speedStale (p : Part) : Nat := param p 8
def lockCountNeeded (p : Part) : Nat := param p 9
def creepCap (p : Part) : Nat := param p 10
def actSettle (p : Part) : Nat := param p 11
def stableSettle (p : Part) : Nat := param p 12
def scrubInterval (p : Part) : Nat := param p 14
def doorStale (p : Part) : Nat := param p 15
def hornMin (p : Part) : Nat := param p 18
def hornMax (p : Part) : Nat := param p 19
def envelopeCount (p : Part) : Nat := param p 20
def envelopeSplit (p : Part) : Nat := param p 21
def fallbackTraction (p : Part) : Nat := param p 22
def fallbackBrake (p : Part) : Nat := param p 23

/-- PARAM hold_exit: FAST 0, SLOW 1 (section 11.5). -/
def holdExit (p : Part) : HoldMode :=
  let w := wordAt p.tables.param.words 13
  if w = 0 then .fast else if w = 1 then .slow else Config.damagedHoldExit w

/-- PARAM zone_mask, zone z at bit z. -/
def zoneMask (p : Part) : Byte := lowByte (wordAt p.tables.param.words 16)

/-- A departure_warning word: OFF 0, ON 1 (section 11.5). -/
def isOn (w : Word) : Bool :=
  if w = 0 then false else if w = 1 then true else Config.damagedDeparture w

/-- PARAM departure_warning. -/
def departureWarning (p : Part) : Bool := isOn (wordAt p.tables.param.words 17)

/-! ### The envelope, cadence, marker and route tables (section 11.5) -/

/-- A breakpoint of the envelope (R90). -/
structure Breakpoint where
  s : Nat
  t : Nat
  b : Nat
  deriving DecidableEq, Repr, Inhabited

def breakpoints : List Word → List Breakpoint
  | w0 :: w1 :: w2 :: ws => { s := w0.toNat, t := w1.toNat, b := w2.toNat } :: breakpoints ws
  | _ => []

/-- The on count and the off count of a cadence step, each from 0 to 255 (R149). The table has steps 0 to
31; a pattern in damaged storage can reach a greater number, of which R150 says nothing: its counts are
free values (notes/assumptions/3.md). -/
def cadenceStep (words : List Word) (i : Nat) : Nat × Nat :=
  if i < 32 then
    let w := wordAt words i
    (bitsOf w 8 8, bitsOf w 0 8)
  else ((Config.damagedStep i).1 % 256, (Config.damagedStep i).2 % 256)

/-- The order of the patterns in the cadence table (R168). -/
def patternIndex : Source → Nat
  | .driverBell => 0 | .depart => 1 | .alarm => 2 | .assist => 3 | .stop => 4

/-- The pattern of a role (R150): the two words of its entry follow the 32 steps. -/
def patternOf (words : List Word) (x : Source) : Pattern :=
  let w0 := wordAt words (32 + 2 * patternIndex x)
  let w1 := wordAt words (33 + 2 * patternIndex x)
  { first := bitsOf w0 8 8, steps := bitsOf w0 0 8, repeats := bitsOf w1 8 8, tone := bitsOf w1 0 8 }

/-- A marker entry (R105). -/
structure MarkerEntry where
  id       : Nat
  junction : Six
  role     : Role
  deriving DecidableEq, Repr, Inhabited

/-- REQUEST 1, COMMIT 2, CLEAR 3. -/
def roleOf : Nat → Role
  | 1 => .request | 2 => .commit | 3 => .clear | n => Config.damagedRole n

def markerEntryOf (w0 w1 : Word) : MarkerEntry where
  id := bitsOf w0 0 12
  junction := w1.extractLsb' 8 6
  role := roleOf (bitsOf w1 0 2)

def markerEntries : List Word → List MarkerEntry
  | w0 :: w1 :: ws => markerEntryOf w0 w1 :: markerEntries ws
  | _ => []

/-- The entry of lowest index that holds the id; an id of 0 is absent (R105). -/
def lookupMarker (words : List Word) (id : Nat) : Option MarkerEntry :=
  if id = 0 then none else (markerEntries words).find? (fun e => e.id == id)

/-- A point setting: LEFT is false, RIGHT is true (section 11.3). -/
structure Setting where
  point : BitVec 3
  right : Bool
  deriving DecidableEq, Repr, Inhabited

/-- A route of a junction (R108). `settingsWord` is the settings "packed as in a SET". -/
structure Route where
  code         : BitVec 4
  settingCount : Nat
  cap          : Nat
  release      : Nat
  settingsWord : Word
  deriving DecidableEq, Repr, Inhabited

/-- The settings in a packed word: groups at bits 11-8, 7-4 and 3-0, the point number in bits 3-1 of a
group and the position in bit 0 (section 11.3). -/
def settingGroups (w : Word) : List Setting :=
  [⟨w.extractLsb' 9 3, bitAt w 8⟩, ⟨w.extractLsb' 5 3, bitAt w 4⟩, ⟨w.extractLsb' 1 3, bitAt w 0⟩]

def Route.settings (r : Route) : List Setting := (settingGroups r.settingsWord).take r.settingCount

def routeOf (w0 w1 w2 w3 : Word) : Route where
  code := w0.extractLsb' 8 4
  settingCount := bitsOf w0 0 2
  cap := w1.toNat
  release := w2.toNat
  settingsWord := w3

/-- A route-table entry (R108): its four route places and the count of those in use. -/
structure RouteEntry where
  address     : Nat
  unconfirmed : Nat
  timeout     : Nat
  dflt        : BitVec 4
  routeCount  : Nat
  places      : List Route
  deriving DecidableEq, Repr, Inhabited

def routeEntryOf (ws : List Word) : RouteEntry where
  address := (wordAt ws 0).toNat
  unconfirmed := (wordAt ws 1).toNat
  timeout := (wordAt ws 2).toNat
  dflt := (wordAt ws 3).extractLsb' 8 4
  routeCount := bitsOf (wordAt ws 3) 0 3
  places := [0, 1, 2, 3].map fun n => routeOf (wordAt ws (4 + 4 * n)) (wordAt ws (5 + 4 * n))
    (wordAt ws (6 + 4 * n)) (wordAt ws (7 + 4 * n))

/-- The routes in use: those in the places below the route count. A count of 0 or of 5 to 7, which R108 does
not have and only damaged storage can hold, is taken as it stands: no route, or the four places (DESIGN
CHOICE, notes/assumptions/38.md). -/
def RouteEntry.routes (e : RouteEntry) : List Route := e.places.take e.routeCount

/-- An entry is defined when its junction address is from 1 to 255 (R108). -/
def RouteEntry.defined (e : RouteEntry) : Bool := 1 ≤ e.address && e.address ≤ 255

/-- The route of the entry with a code: the first of them in order (R108). -/
def RouteEntry.route? (e : RouteEntry) (code : BitVec 4) : Option Route :=
  e.routes.find? fun r => r.code == code

/-- The effective route code under a selection (R108). -/
def RouteEntry.effective (e : RouteEntry) (selection : BitVec 4) : BitVec 4 :=
  if selection = 0 then e.dflt else selection

/-- The release distance, in decimetres, for a record of this junction with a route code: that of its
route, or of the junction's first route where it has none (R108, R121). The first route is that of the first
place, also with a route count of 0 in damaged storage (DESIGN CHOICE, notes/assumptions/38.md). -/
def RouteEntry.releaseDistance (e : RouteEntry) (code : BitVec 4) : Nat :=
  10 * ((e.route? code).getD (e.places.headD default)).release

/-- The route-table entry of a junction index. -/
def routeEntry (p : Part) (j : Six) : RouteEntry :=
  routeEntryOf ((p.tables.route.words.drop (20 * j.toNat)).take 20)

end Sys2Proof.Machine
end

