-- ==== Sys2Proof/Machine/Ops.lean ====
section
/-! DEFINITION. The operations every block shares: discrete lines under the two-sample rule, the cap
table and P, slot records and the record a function reads, the cab state's classes, the lanes, the
lane outputs, and the response queue. -/

namespace Sys2Proof.Machine

/-- Everything but the queue changes by `f`. -/
def State.onPart (f : Part → Part) (s : State) : State := { s with part := f s.part }

/-! ### Discrete lines (R44) -/

/-- The levels of the discrete lines at an event that carries them. -/
def withLines (lines : Lines) (p : Part) : Part := { p with lines := lines }

/-- Whether a sample makes a change recognised: it equals the previous sample and differs from the
recognised value. -/
def recognises {α : Type} [DecidableEq α] (r : Recogniser α) (sample : α) : Bool :=
  decide (r.prev = some sample) && decide (r.value ≠ sample)

/-- The recogniser after a sample. -/
def sampled {α : Type} [DecidableEq α] (r : Recogniser α) (sample : α) : Recogniser α :=
  { value := if recognises r sample then sample else r.value, prev := some sample }

/-! ### Cab states -/

/-- ACTIVATING, ACTIVE or HOLD: the states in which evaluations are made (R78), sound requests are
taken (R152) and the horn acts (R163). -/
def cabActs (p : Part) : Bool :=
  match p.cab.state with
  | .activating | .active | .hold => true
  | .inactive | .stabled => false

/-- ACTIVE or HOLD: the states in which the junction and stop units act. -/
def cabLive (p : Part) : Bool :=
  match p.cab.state with
  | .active | .hold => true
  | .inactive | .activating | .stabled => false

/-! ### The cap table (chapter 4) -/

/-- A row of the cap table: `none` while absent. -/
def getRow (c : CapTable) : Row → Option Nat
  | .line => some c.line
  | .cab => c.cab
  | .doors => c.doors
  | .departure => c.departure
  | .speedLock => c.speedLock
  | .restrict => c.restrict
  | .overflow => c.overflow
  | .junction pos => c.junctions[pos]

/-- A row made present with a value, or (`none`) absent; the LINE row is never withdrawn (R73). -/
def putRow (c : CapTable) (r : Row) (v : Option Nat) : CapTable :=
  match r with
  | .line => { c with line := v.getD c.line }
  | .cab => { c with cab := v }
  | .doors => { c with doors := v }
  | .departure => { c with departure := v }
  | .speedLock => { c with speedLock := v }
  | .restrict => { c with restrict := v }
  | .overflow => { c with overflow := v }
  | .junction pos => { c with junctions := c.junctions.set pos v }

/-- A writer sets its row (R68). -/
def setRow (r : Row) (v : Nat) (p : Part) : Part := { p with caps := putRow p.caps r (some v) }

/-- A writer withdraws its row (R68). -/
def withdrawRow (r : Row) (p : Part) : Part := { p with caps := putRow p.caps r none }

/-- The rows after LINE, in the order of section 4.2. -/
def laterRows : List Row :=
  [.cab, .doors, .departure, .speedLock, .restrict, .overflow,
   .junction 0, .junction 1, .junction 2, .junction 3]

/-- P and the cap source formed over the rows given, starting from a row already found: a row that
holds a lesser value takes over, so the first in order keeps a tie (R69). -/
def formP (c : CapTable) : List Row → Nat × Row → Nat × Row
  | [], best => best
  | r :: rs, best =>
    match getRow c r with
    | some v => formP c rs (if v < best.1 then (v, r) else best)
    | none => formP c rs best

/-- P and the cap source (R69). They follow the rows at every moment (R70), so they are computed from
the rows where they are read. -/
def capsP (c : CapTable) : Nat × Row := formP c laterRows (c.line, .line)

def permittedSpeed (p : Part) : Nat := (capsP p.caps).1

def capSource (p : Part) : Row := (capsP p.caps).2

/-! ### The lanes -/

/-- The line-lost condition: both lanes DOWN (R18). -/
def lineLost (p : Part) : Bool := !p.line.laneA.up && !p.line.laneB.up

def laneOf (li : LineInterface) : Lane → LaneState
  | .A => li.laneA
  | .B => li.laneB

def withLane (li : LineInterface) (l : Lane) (x : LaneState) : LineInterface :=
  match l with
  | .A => { li with laneA := x }
  | .B => { li with laneB := x }

/-- A cell invalid on a lane adds one to its error count, saturating at 65535 (R16). -/
def countError (l : Lane) (p : Part) : Part :=
  let x := laneOf p.line l
  { p with line := withLane p.line l { x with errors := min 65535 (x.errors + 1) } }

/-- A cell driven on a lane output. -/
def drive (l : Lane) (cell : List Word) (p : Part) : Part :=
  match l with
  | .A => { p with sentA := cell :: p.sentA }
  | .B => { p with sentB := cell :: p.sentB }

/-! ### Slot records -/

/-- Record `i`. -/
def recordAt (p : Part) (i : Fin 82) : SlotRecord := p.slots.records[i]

/-- Record `i` replaced. -/
def putRecord (i : Fin 82) (r : SlotRecord) (p : Part) : Part :=
  { p with slots := { p.slots with records := p.slots.records.set i r } }

/-- The entries of the slot table with their records, in index order (80 of each, R21). -/
def entryRecords (p : Part) : List (SlotEntry × SlotRecord) :=
  (slotEntries p.tables.slot.words).zip (p.slots.records.toList.take 80)

/-- The records of the enabled entries with a function, in index order. -/
def enabledRecords (p : Part) (f : Fn) : List SlotRecord :=
  ((entryRecords p).filter fun x => x.1.enable && x.1.fn == f).map fun x => x.2

/-- Whether record `r` is read before record `best` of a lower index: it has lesser age, or equal age
below 255 and a later store (R24). -/
def readBefore (r best : SlotRecord) : Bool :=
  decide (r.age < best.age) || (decide (r.age = best.age) && decide (best.age ≠ 255) && decide (best.stamp < r.stamp))

/-- The record read among those given, in index order (R24). -/
def leastAged : List SlotRecord → Option SlotRecord
  | [] => none
  | r :: rs => some (rs.foldl (fun best x => if readBefore x best then x else best) r)

/-- The record a rule reads when it names a received function and not an entry (R24); none where no
enabled entry has the function. -/
def fnRecord (p : Part) (f : Fn) : Option SlotRecord := leastAged (enabledRecords p f)

/-- Whether an enabled entry of the slot table has a function. -/
def hasFn (p : Part) (f : Fn) : Bool :=
  (slotEntries p.tables.slot.words).any fun e => e.enable && e.fn == f

/-- A function's record is fresh when an enabled entry has the function and its age is at most the
threshold; otherwise it is stale (R81, R82, R87). -/
def freshWithin (p : Part) (f : Fn) (limit : Nat) : Bool :=
  match fnRecord p f with
  | some r => decide (r.age ≤ limit)
  | none => false

/-- Word `i` of the record a function reads, 0 where there is none. -/
def fnWord (p : Part) (f : Fn) (i : Nat) : Word :=
  match fnRecord p f with
  | some r => wordAt r.payload i
  | none => 0

/-! ### The response queue (R184) -/

/-- Places a response, with its data words filled out to five: it joins as the newest, or is discarded
with RESPONSE_LOST when four wait. -/
def respond (tag code : Byte) (result : Result) (data : List Word) (p : Part) : Part :=
  if p.mgmt.queue.length < 4 then
    { p with mgmt := { p.mgmt with queue := p.mgmt.queue ++
        [{ node := p.node, code := code, tag := tag, result := result, data := padTo 5 data }] } }
  else setFlag .responseLost p

end Sys2Proof.Machine
end

