-- ==== Sys2Proof/Machine/Checks.lean ====
section
/-! DEFINITION. The range tests of entry images (R21, R169, R175) and the structural and sum checks of
the six tables (R41, R51, R170, R180). -/

namespace Sys2Proof.Machine

/-- No bit is set outside a mask of assigned bits (R175, section 11.5). -/
def onlyBits (w mask : Word) : Bool := w &&& ~~~mask == 0

/-- `lo ≤ w ≤ hi`. -/
def between (lo hi : Nat) (w : Word) : Bool := lo ≤ w.toNat && w.toNat ≤ hi

def allZero (ws : List Word) : Bool := ws.all (· == 0)

/-! ### Range tests (R175) -/

/-- A slot table entry image: every field in the range of R21. -/
def slotInRange (w0 w1 w2 : Word) : Bool :=
  onlyBits w0 0xBF73 && onlyBits w1 0x3F7F && onlyBits w2 0x1F8F
    && bitsOf w0 8 6 != 0 && decide (bitsOf w0 4 3 ≤ 4)
    && [1, 2, 4, 8, 16, 32, 64].contains (bitsOf w1 0 7)
    && decide (bitsOf w1 8 6 < bitsOf w1 0 7)
    && (fnNamed (bitsOf w2 8 5)).isSome && decide (bitsOf w2 0 4 ≤ 8)

/-- The ranges of R169 in its order; hold_exit and departure_warning hold 0 or 1 (section 11.5). -/
def paramRanges : List (Nat × Nat) :=
  [(0, 1000), (5, 100), (1, 1000), (1, 1000), (100, 1000), (100, 1000), (100, 1000), (1, 15), (1, 15),
   (1, 15), (0, 200), (2, 63), (8, 255), (0, 1), (16, 4095), (1, 15), (1, 255), (0, 1), (1, 63),
   (50, 3000), (0, 16), (1, 16), (0, 300), (0, 1000)]

/-- Each word lies in the range beside it, and there are as many words as ranges. -/
def wordsInRanges : List Word → List (Nat × Nat) → Bool
  | [], [] => true
  | w :: ws, r :: rs => between r.1 r.2 w && wordsInRanges ws rs
  | _, _ => false

/-- Every parameter lies in its range (R169). -/
def paramInRange (ws : List Word) : Bool := wordsInRanges ws paramRanges

/-- A cadence pattern's image (R175); the tone of ALARM, ASSIST and STOP is at least 1. -/
def patternInRange (x : Source) (w0 w1 : Word) : Bool :=
  decide (bitsOf w0 8 8 ≤ 31) && decide (bitsOf w0 0 8 ≤ 32)
    && decide (bitsOf w0 8 8 + bitsOf w0 0 8 ≤ 32) && decide (bitsOf w1 0 8 ≤ 15)
    && (match x with
        | .driverBell | .depart => true
        | .alarm | .assist | .stop => bitsOf w1 0 8 != 0)

/-- A marker entry's image (R175). -/
def markerInRange (w0 w1 : Word) : Bool :=
  onlyBits w0 0x0FFF && onlyBits w1 0x3F03 && w0 != 0 && bitsOf w1 0 2 != 0

/-- The packed settings of a route with `n` settings: the groups beyond the count are 0. -/
def settingsInRange (n : Nat) (w : Word) : Bool :=
  match n with
  | 1 => onlyBits w 0x0F00
  | 2 => onlyBits w 0x0FF0
  | _ => onlyBits w 0x0FFF

/-- The four words of a route within the route count (R175). -/
def routeInRange (w0 w1 w2 w3 : Word) : Bool :=
  onlyBits w0 0x0F03 && bitsOf w0 8 4 != 0 && bitsOf w0 0 2 != 0 && between 0 1000 w1
    && between 1 255 w2 && settingsInRange (bitsOf w0 0 2) w3

/-- The four words of each route place: in range within the count, 0 beyond it (R175). -/
def routePlacesInRange : Nat → List Word → Bool
  | _, [] => true
  | 0, ws => allZero ws
  | n + 1, w0 :: w1 :: w2 :: w3 :: ws => routeInRange w0 w1 w2 w3 && routePlacesInRange n ws
  | _ + 1, _ => false

/-- A route entry's image (R175). -/
def routeEntryInRange : List Word → Bool
  | w0 :: w1 :: w2 :: w3 :: ws =>
    between 1 255 w0 && between 0 1000 w1 && between 10 1000 w2 && onlyBits w3 0x0F07
      && bitsOf w3 8 4 != 0 && decide (1 ≤ bitsOf w3 0 3) && decide (bitsOf w3 0 3 ≤ 4)
      && routePlacesInRange (bitsOf w3 0 3) ws
  | _ => false

/-- The pattern whose cadence entry has an index from 32 to 36 (R168). -/
def patternAt (index : Nat) : Source :=
  match index with
  | 32 => .driverBell | 33 => .depart | 34 => .alarm | 35 => .assist | _ => .stop

/-- An entry image is in range (R175). An image of zeros is in range but for PARAM. -/
def imageInRange (t : TableId) (index : Nat) (image : List Word) : Bool :=
  match t, image with
  | .param, ws => paramInRange ws
  | .slot, [w0, w1, w2] => allZero image || slotInRange w0 w1 w2
  | .cadence, [_] => true
  | .cadence, [w0, w1] => allZero image || patternInRange (patternAt index) w0 w1
  | .marker, [w0, w1] => allZero image || markerInRange w0 w1
  | .route, ws => allZero ws || routeEntryInRange ws
  | _, _ => false

/-! ### The tables' shapes (R168) -/

def tableAt (ts : TableStore) : TableId → Table
  | .slot => ts.slot
  | .param => ts.param
  | .envelope => ts.envelope
  | .cadence => ts.cadence
  | .marker => ts.marker
  | .route => ts.route

def putTable (ts : TableStore) (t : TableId) (x : Table) : TableStore :=
  match t with
  | .slot => { ts with slot := x }
  | .param => { ts with param := x }
  | .envelope => { ts with envelope := x }
  | .cadence => { ts with cadence := x }
  | .marker => { ts with marker := x }
  | .route => { ts with route := x }

/-- How many entries a table has (R168). -/
def entryCount : TableId → Nat
  | .slot => 80 | .param => 1 | .envelope => 16 | .cadence => 37 | .marker => 128 | .route => 64

/-- How many words an entry has (R168). -/
def entrySize (t : TableId) (index : Nat) : Nat :=
  match t with
  | .slot => 3
  | .param => 24
  | .envelope => 3
  | .cadence => if index < 32 then 1 else 2
  | .marker => 2
  | .route => 20

/-- Where an entry's words begin in its table (R168). -/
def entryStart (t : TableId) (index : Nat) : Nat :=
  match t with
  | .cadence => if index < 32 then index else 32 + 2 * (index - 32)
  | t => entrySize t index * index

/-- How many words a table has (R168). -/
def tableSize : TableId → Nat
  | .slot => 240 | .param => 24 | .envelope => 48 | .cadence => 42 | .marker => 256 | .route => 1280

/-- The words of an entry. -/
def entryWords (ts : TableStore) (t : TableId) (index : Nat) : List Word :=
  ((tableAt ts t).words.drop (entryStart t index)).take (entrySize t index)

/-! ### Structural checks (R41, R180) -/

/-- The enabled entries with a function. -/
def enabledWith (es : List SlotEntry) (f : Fn) : List SlotEntry :=
  es.filter fun e => e.enable && e.fn == f

/-- No two entries have the same slot and the same cycle filter (R41, 5). -/
def distinctFilters : List SlotEntry → Bool
  | [] => true
  | e :: es => es.all (fun x => !(x.slot == e.slot && x.base == e.base && x.rep == e.rep))
      && distinctFilters es

/-- The structural check of the slot table (R41). -/
def slotStructure (words : List Word) : Bool :=
  let es := (slotEntries words).filter fun e => e.enable
  [Fn.handle, .speed, .marker, .doorStatus, .emergency, .otherCab, .demandOut, .cabStatusOut,
    .pointRequestOut, .chimeOut].all (fun f => (enabledWith es f).length == 1)
    && (enabledWith es .demandOut).all (fun e => !e.single)
    && (enabledWith es .mgmtIn).length != 0 && (enabledWith es .mgmtOut).length != 0
    && es.all (fun e => (e.disposition == .own) == isOwned e.fn)
    && distinctFilters es

/-- The cadence patterns' words in pairs with their roles. -/
def patternsInRange (words : List Word) : Bool :=
  [Source.driverBell, .depart, .alarm, .assist, .stop].all fun x =>
    let w0 := wordAt words (32 + 2 * patternIndex x)
    let w1 := wordAt words (33 + 2 * patternIndex x)
    allZero [w0, w1] || patternInRange x w0 w1

/-- The structural check of the cadence table (R180). -/
def cadenceStructure (words param : List Word) : Bool :=
  patternsInRange words && decide (1 ≤ (patternOf words .alarm).steps)
    && (!isOn (wordAt param 17) || decide (1 ≤ (patternOf words .depart).steps))

/-- Each marker entry is empty, as an entry of marker id 0 is whatever else it holds (R105), or in range. -/
def markersInRange : List Word → Bool
  | w0 :: w1 :: ws => ((markerEntryOf w0 w1).id == 0 || markerInRange w0 w1) && markersInRange ws
  | _ => true

/-- The marker ids of the non-empty entries. -/
def markerIds (words : List Word) : List Nat :=
  ((markerEntries words).filter fun e => e.id != 0).map fun e => e.id

/-- The structural check of the marker table (R180). -/
def markerStructure (words : List Word) : Bool :=
  markersInRange words && decide (markerIds words).Nodup

/-- The 20 words of a route-table entry. -/
def routeWords (words : List Word) (j : Nat) : List Word := (words.drop (20 * j)).take 20

/-- One route entry at the structural check (R180). -/
def routeStructureAt (words : List Word) (j : Nat) : Bool :=
  let ws := routeWords words j
  let e := routeEntryOf ws
  (allZero ws || routeEntryInRange ws)
    && (!e.defined || ((e.route? e.dflt).isSome && decide (e.routes.map fun r => r.code).Nodup))

/-- The structural check of the route table, which reads the marker table (R180). -/
def routeStructure (words marker : List Word) : Bool :=
  (List.range 64).all (routeStructureAt words)
    && (markerEntries marker).all (fun m =>
        m.id == 0 || (routeEntryOf (routeWords words m.junction.toNat)).defined)

/-- The structural part of a table's check (R51). -/
def structureOk (ts : TableStore) : TableId → Bool
  | .slot => slotStructure ts.slot.words
  | .param => paramInRange ts.param.words
  | .envelope => ts.envelope.words.all (between 0 1000)
  | .cadence => cadenceStructure ts.cadence.words ts.param.words
  | .marker => markerStructure ts.marker.words
  | .route => routeStructure ts.route.words ts.marker.words

/-- The sum equals the reference sum (R170). -/
def sumMatches (x : Table) : Bool := tableSum x.words == x.ref

/-- The sum part of a table's check at activation (R51). -/
def sumOk (x : Table) : Bool := sumMatches x && !x.faulty

/-- The table checked after a table (R51, R64). -/
def tableAfter : TableId → Option TableId
  | .slot => some .param
  | .param => some .envelope
  | .envelope => some .cadence
  | .cadence => some .marker
  | .marker => some .route
  | .route => none

end Sys2Proof.Machine
end

