-- ==== Sys2Proof/Machine/SoundUnit.lean ====
section
/-! DEFINITION. The sound unit (chapter 8): sources, channel arbitration, the horn and the alarm
conditions. -/

namespace Sys2Proof.Machine

/-! ### Sources and channels (R151) -/

def getSource (snd : Sound) : Source → SoundSource
  | .driverBell => snd.driverBell
  | .depart => snd.depart
  | .alarm => snd.alarm
  | .assist => snd.assist
  | .stop => snd.stop

def putSource (snd : Sound) (x : Source) (v : SoundSource) : Sound :=
  match x with
  | .driverBell => { snd with driverBell := v }
  | .depart => { snd with depart := v }
  | .alarm => { snd with alarm := v }
  | .assist => { snd with assist := v }
  | .stop => { snd with stop := v }

def channelOf : Source → Channel
  | .driverBell | .depart => .bell
  | .alarm | .assist | .stop => .chime

/-- A channel's sources, highest priority first (R151). -/
def members : Channel → List Source
  | .bell => [.driverBell, .depart]
  | .chime => [.alarm, .assist, .stop]

/-- The sources of a source's channel with a higher priority, highest first (R151). -/
def higherThan : Source → List Source
  | .driverBell => []
  | .depart => [.driverBell]
  | .alarm => []
  | .assist => [.alarm]
  | .stop => [.alarm, .assist]

def isPlaying (snd : Sound) (x : Source) : Bool := (getSource snd x).state == .playing

/-- WAITING or SUSPENDED: at its channel's disposal and not playing. -/
def isReady (snd : Sound) (x : Source) : Bool :=
  match (getSource snd x).state with
  | .waiting | .suspended => true
  | .idle | .playing => false

/-- The source of a channel that is PLAYING, if any. -/
def playing (snd : Sound) (ch : Channel) : Option Source := (members ch).find? (isPlaying snd)

/-! ### Playing and arbitration (R153 to R157) -/

/-- A source begins the step at its offset (R149, R153); `cadence` is the cadence table's words. -/
def beginStep (cadence : List Word) (x : Source) (snd : Sound) : Sound :=
  let src := getSource snd x
  let step := cadenceStep cadence (src.pattern.first + src.offset)
  putSource snd x { src with
    state := .playing
    phaseOn := decide (0 < step.1)
    phaseCount := if 0 < step.1 then step.1 else if 0 < step.2 then step.2 else 1
    offCount := step.2
    begun := true }

/-- A source goes to IDLE. -/
def toIdle (x : Source) (snd : Sound) : Sound := putSource snd x SoundSource.idle

/-- No source of the channel is PLAYING: the first ready source of those given, in order of priority,
begins to play; one whose latched pattern has no steps completes instead (R155, R157). -/
def startBest (cadence : List Word) : List Source → Sound → Sound
  | [], snd => snd
  | x :: xs, snd =>
    if isReady snd x then
      if (getSource snd x).pattern.steps = 0 then startBest cadence xs (toIdle x snd)
      else beginStep cadence x snd
    else startBest cadence xs snd

/-- A request for a source (R152): ignored in INACTIVE and STABLED (`acts` false) and while the source
is not IDLE. -/
def requestSource (cadence : List Word) (acts : Bool) (x : Source) (snd : Sound) : Sound :=
  if acts && (getSource snd x).state == .idle then
    let pattern := patternOf cadence x
    let snd' := putSource snd x
      { SoundSource.idle with state := .waiting, pattern := pattern, passesLeft := pattern.repeats }
    match playing snd' (channelOf x) with
    | none => startBest cadence (members (channelOf x)) snd'
    | some _ => snd'
  else snd

/-- A stop or withdrawal of a source (R156). -/
def stopSource (cadence : List Word) (x : Source) (snd : Sound) : Sound :=
  match (getSource snd x).state with
  | .idle => snd
  | .waiting | .suspended => toIdle x snd
  | .playing => startBest cadence (members (channelOf x)) (toIdle x snd)

/-- A source's progress at a step end (R154, R158): `none` where it completes. -/
def advanced (x : Source) (src : SoundSource) : Option SoundSource :=
  if x = .driverBell ∧ src.releaseMark then none
  else if src.offset + 1 < src.pattern.steps then some { src with offset := src.offset + 1 }
  else if x = .driverBell ∨ src.pattern.repeats = 0 then some { src with offset := 0 }
  else if src.passesLeft ≤ 1 then none
  else some { src with offset := 0, passesLeft := src.passesLeft - 1 }

/-- The decision at a step end of a PLAYING source that has not completed (R155), over the sources of
higher priority given: the first that is ready and has steps plays and the source is SUSPENDED; if
there is none, the source goes on with its next step. -/
def continueOrYield (cadence : List Word) (x : Source) : List Source → Sound → Sound
  | [], snd => beginStep cadence x snd
  | y :: ys, snd =>
    if isReady snd y then
      if (getSource snd y).pattern.steps = 0 then continueOrYield cadence x ys (toIdle y snd)
      else beginStep cadence y (putSource snd x { getSource snd x with state := .suspended })
    else continueOrYield cadence x ys snd

/-- The step end of a PLAYING source (R154, R155). -/
def endStep (cadence : List Word) (x : Source) (snd : Sound) : Sound :=
  match advanced x (getSource snd x) with
  | none => startBest cadence (members (channelOf x)) (toIdle x snd)
  | some src => continueOrYield cadence x (higherThan x) (putSource snd x src)

/-- The ON phase of a PLAYING source is over and its step has an off count above 0: the phase becomes
OFF with the step's off count (R153). -/
def endPhase (x : Source) (snd : Sound) : Sound :=
  let src := getSource snd x
  putSource snd x { src with phaseOn := false, phaseCount := src.offCount }

/-- The phase count of a source stands at 0 with its ON phase to be followed by an OFF phase. -/
def phaseIsOver (src : SoundSource) : Bool :=
  decide (src.phaseCount = 0) && src.phaseOn && decide (0 < src.offCount)

/-- The phase count of a source stands at 0 and its step has no phase left. -/
def stepIsOver (src : SoundSource) : Bool :=
  decide (src.phaseCount = 0) && !(src.phaseOn && decide (0 < src.offCount))

/-- A cycle start begins: the steps begun before it are counted at it (R153). -/
def ageSteps (p : Part) : Part :=
  { p with sound := { p.sound with
    driverBell := { p.sound.driverBell with begun := false }
    depart := { p.sound.depart with begun := false }
    alarm := { p.sound.alarm with begun := false }
    assist := { p.sound.assist with begun := false }
    stop := { p.sound.stop with begun := false } } }

/-- A channel at a cycle start: the phase count of its PLAYING source decreases by one, unless its step
began at this cycle start, and the phase or the step ends where the count reaches 0 (R153). -/
def countChannel (cadence : List Word) (ch : Channel) (snd : Sound) : Sound :=
  match playing snd ch with
  | none => snd
  | some x =>
    let src := getSource snd x
    if src.begun = false then
      let src' := { src with phaseCount := src.phaseCount - 1 }
      let snd' := putSource snd x src'
      if phaseIsOver src' then endPhase x snd'
      else if stepIsOver src' then endStep cadence x snd'
      else snd'
    else snd

/-! ### The DEPARTURE row (R159) -/

/-- The DEPARTURE row after the sound unit's work: set at 0 where the work took DEPART out of IDLE,
withdrawn where it took it to IDLE, otherwise as it was. -/
def departureRow (before after : Sound) (row : Option Nat) : Option Nat :=
  if after.depart.state = .idle then (if before.depart.state = .idle then row else none)
  else if before.depart.state = .idle then some 0 else row

/-- The sound unit's state replaced, with the DEPARTURE row following DEPART. -/
def withSound (snd : Sound) (p : Part) : Part :=
  { p with
    sound := snd
    caps := { p.caps with departure := departureRow p.sound snd p.caps.departure } }

/-! ### The sound unit's events -/

/-- A request for a source from a block of the part (R152). -/
def request (x : Source) (p : Part) : Part :=
  withSound (requestSource p.tables.cadence.words (cabActs p) x p.sound) p

/-- A source is stopped or withdrawn (R156). -/
def withdrawSource (x : Source) (p : Part) : Part :=
  withSound (stopSource p.tables.cadence.words x p.sound) p

/-- A press of BELL_BTN recognised in ACTIVE (R158). -/
def bellPressed (cadence : List Word) (acts : Bool) (snd : Sound) : Sound :=
  if snd.driverBell.state = .playing ∧ snd.driverBell.releaseMark then
    { snd with driverBell := { snd.driverBell with releaseMark := false } }
  else requestSource cadence acts .driverBell snd

/-- A release of BELL_BTN recognised (R158). -/
def bellReleased (snd : Sound) : Sound :=
  match snd.driverBell.state with
  | .waiting => toIdle .driverBell snd
  | .playing => { snd with driverBell := { snd.driverBell with releaseMark := true } }
  | .idle | .suspended => snd

/-- Step 1 of R153 for BELL_BTN. -/
def sampleBell (cadence : List Word) (active acts : Bool) (level : Bool) (snd : Sound) : Sound :=
  let snd' := { snd with bellBtn := sampled snd.bellBtn level }
  if recognises snd.bellBtn level then
    if level then (if active then bellPressed cadence acts snd' else snd') else bellReleased snd'
  else snd'

/-- A recognition of HORN_BTN (R163): a press turns an OFF horn ON, a release returns a STUCK horn to
OFF. -/
def hornRecognised (level : Bool) (snd : Sound) : Sound :=
  match snd.horn, level with
  | .off, true => { snd with horn := .on, hornCount := 0 }
  | .stuck, false => { snd with horn := .off }
  | _, _ => snd

/-- Step 1 of R153 for HORN_BTN; the horn acts in ACTIVATING, ACTIVE and HOLD. -/
def sampleHorn (acts : Bool) (level : Bool) (snd : Sound) : Sound :=
  let snd' := { snd with hornBtn := sampled snd.hornBtn level }
  if recognises snd.hornBtn level && acts then hornRecognised level snd' else snd'

/-- Step 1 of R153 for ACK_BTN: a recognised press stops ALARM, in every cab state (R160). -/
def sampleAck (cadence : List Word) (level : Bool) (snd : Sound) : Sound :=
  let snd' := { snd with ackBtn := sampled snd.ackBtn level }
  if recognises snd.ackBtn level && level then stopSource cadence .alarm snd' else snd'

/-- The horn has reached its maximum with the button held (R163). -/
def hornIsStuck (p : Part) : Bool :=
  p.sound.horn == .on && p.sound.hornBtn.value && decide (hornMax p ≤ p.sound.hornCount)

/-- The horn has reached its minimum with the button released (R163). -/
def hornIsDone (p : Part) : Bool :=
  p.sound.horn == .on && !p.sound.hornBtn.value && decide (hornMin p ≤ p.sound.hornCount)

/-- The horn is cut: STUCK, with the sticky flag HORN_STUCK (R163). -/
def cutHorn (p : Part) : Part := setFlag .hornStuck { p with sound := { p.sound with horn := .stuck } }

/-- The horn is turned OFF (R163). -/
def endHorn (p : Part) : Part := { p with sound := { p.sound with horn := .off } }

/-- Step 3 of R153: an ON horn counts, unless it was turned on at this cycle start, and is cut or
turned off where it has reached its limit (R163). -/
def countHorn (wasOn : Bool) (p : Part) : Part :=
  if p.sound.horn = .on ∧ wasOn then
    let p' := { p with sound := { p.sound with hornCount := min 3000 (p.sound.hornCount + 1) } }
    if hornIsStuck p' then cutHorn p' else if hornIsDone p' then endHorn p' else p'
  else p

/-- The sound unit's work at a cycle start (R153). -/
def soundCycle (p : Part) : Part :=
  let cadence := p.tables.cadence.words
  let active := p.cab.state == .active
  let wasOn := p.sound.horn == .on
  let snd := sampleAck cadence p.lines.ackBtn
    (sampleHorn (cabActs p) p.lines.hornBtn
      (sampleBell cadence active (cabActs p) p.lines.bellBtn p.sound))
  let snd' := countChannel cadence .chime (countChannel cadence .bell snd)
  countHorn wasOn (withSound snd' p)

/-- ACTIVATING to INACTIVE, and teardown (R165): every source IDLE with no arbiter decision, the
DEPARTURE row withdrawn, the horn OFF with on count 0, no alarm condition holding. The recognised
buttons are kept. -/
def soundOff (p : Part) : Part :=
  { p with
    sound := { Sound.reset with
      bellBtn := p.sound.bellBtn, hornBtn := p.sound.hornBtn, ackBtn := p.sound.ackBtn }
    caps := { p.caps with departure := none } }

/-- ACTIVE to HOLD (R165): DRIVER_BELL is stopped. -/
def soundHold (p : Part) : Part := withdrawSource .driverBell p

/-! ### Outputs (R162, R163, R164) -/

/-- The source PLAYING in phase ON on a channel. -/
def sounding (snd : Sound) (ch : Channel) : Option Source :=
  match playing snd ch with
  | some x => if (getSource snd x).phaseOn then some x else none
  | none => none

def bellOut (p : Part) : Bool := (sounding p.sound .bell).isSome

def hornOut (p : Part) : Bool := p.sound.horn == .on

def alarmLamp (p : Part) : Bool :=
  p.sound.junctionFault || p.sound.overflow || p.sound.forced || p.sound.envelope

/-- The tone in CHIME_OUT. -/
def chimeTone (p : Part) : Nat :=
  match sounding p.sound .chime with
  | some x => (getSource p.sound x).pattern.tone
  | none => 0

/-- The role in CHIME_OUT: NONE 0, STOP 1, ASSIST 2, ALARM 3 (section 11.3). -/
def chimeRole (p : Part) : Nat :=
  match playing p.sound .chime with
  | some .stop => 1
  | some .assist => 2
  | some .alarm => 3
  | _ => 0

end Sys2Proof.Machine
end

