-- ==== Sys2Proof/Machine/StopUnit.lean ====
section
/-! DEFINITION. The stop unit (chapter 7): door status, trip phase, pushes, door-open requests,
assistance, and its outputs. -/

namespace Sys2Proof.Machine

/-- Zone `z` in a bitmap (section 11: zone z at bit z). -/
def zoneIn (bitmap : Byte) (z : Fin 8) : Bool := bitmap.getLsbD z.val

/-- A bitmap with zone `z` put in. -/
def addZone (bitmap : Byte) (z : Fin 8) : Byte := bitmap ||| (1#8 <<< z.val)

/-- The closed bitmap of the door status; with no door status, no zone is reported closed. -/
def closedZones (p : Part) : Byte :=
  match p.stop.door with
  | some d => d.closed
  | none => 0

/-- The released bitmap of the door status; with no door status, none is reported released. -/
def releasedZones (p : Part) : Byte :=
  match p.stop.door with
  | some d => d.released
  | none => 0

/-- The door status is stale (R132). -/
def doorIsStale (p : Part) : Bool :=
  match p.stop.door with
  | some d => !hasFn p .doorStatus || decide (doorStale p < (recordAt p d.source).age)
  | none => true

/-- Every zone in zone_mask is held in the closed bitmap. -/
def allClosed (p : Part) : Bool := zoneMask p &&& ~~~(closedZones p) == 0

/-- The condition of the DOORS row (R133). -/
def doorsHold (p : Part) : Bool := !allClosed p || releasedZones p != 0 || doorIsStale p

/-- The stop unit tests the DOORS row and sets it at 0 or withdraws it (R133). -/
def testDoors (p : Part) : Part := if doorsHold p then setRow .doors 0 p else withdrawRow .doors p

/-- The change of trip phase from RUNNING to AT_STOP (R135). -/
def changeToAtStop (p : Part) : Part :=
  withdrawSource .depart { p with stop := { p.stop with
    phase := .atStop
    request := false
    doorOpen := p.stop.doorOpen ||| (p.stop.push &&& zoneMask p &&& releasedZones p &&& closedZones p)
    push := 0 } }

/-- The change of trip phase from AT_STOP to RUNNING (R136). -/
def changeToRunning (p : Part) : Part :=
  let p' := { p with stop := { p.stop with phase := .running, doorOpen := 0 } }
  if departureWarning p then request .depart p' else p'

/-- Steps 1 and 2 of R134. -/
def tripPhase (p : Part) : Part :=
  match p.stop.phase with
  | .running => if releasedZones p != 0 then changeToAtStop p else p
  | .atStop => if releasedZones p == 0 && allClosed p then changeToRunning p else p

/-- Step 3 of R134 (R137): a request stands only where its zone is closed and released. -/
def clearDoorOpen (p : Part) : Part :=
  { p with stop := { p.stop with doorOpen := p.stop.doorOpen &&& closedZones p &&& releasedZones p } }

/-- One assistance flag at a door status (R138). -/
def advanceAssistance (closed : Bool) : Assistance → Assistance
  | .waitingOpen => if closed then .waitingOpen else .opened
  | .opened => if closed then .clear else .opened
  | .clear => .clear

/-- Step 4 of R134. -/
def advanceAssistances (p : Part) : Part :=
  { p with stop := { p.stop with
    assistance := Vector.ofFn fun z => advanceAssistance (zoneIn (closedZones p) z) p.stop.assistance[z] } }

/-- A store into a record of function DOOR_STATUS (R132, R134). -/
def doorStore (source : Fin 82) (r : SlotRecord) (p : Part) : Part :=
  let p' := { p with stop := { p.stop with door := some {
    closed := lowByte (wordAt r.payload 0)
    released := lowByte (wordAt r.payload 1)
    source := source } } }
  testDoors (if cabLive p then advanceAssistances (clearDoorOpen (tripPhase p')) else p')

/-- A push in RUNNING, or at a zone that is not released (R140, first two rows). -/
def askForStop (z : Fin 8) (p : Part) : Part :=
  let p' := { p with stop := { p.stop with push := addZone p.stop.push z, request := true } }
  if p.stop.request then p' else request .stop p'

/-- A stop push for zone `z` in ACTIVE or HOLD (R140). -/
def stopPush (z : Fin 8) (p : Part) : Part :=
  if p.stop.phase = .running ∨ zoneIn (releasedZones p) z = false then askForStop z p
  else if zoneIn (closedZones p) z then
    { p with stop := { p.stop with doorOpen := addZone p.stop.doorOpen z } }
  else p

/-- An assistance push for zone `z` in ACTIVE or HOLD (R141). -/
def assistancePush (z : Fin 8) (p : Part) : Part :=
  let p' := stopPush z p
  request .assist { p' with stop := { p'.stop with assistance := p'.stop.assistance.set z .waitingOpen } }

/-- Whether a counter shows a push: its last value is known and differs (R139). -/
def pushed (last : Option Byte) (now : Byte) : Bool :=
  match last with
  | some b => b != now
  | none => false

/-- A store into a record of function STOP_BUTTON (R139). -/
def buttonStore (r : SlotRecord) (p : Part) : Part :=
  let z : Fin 8 := ⟨bitsOf (wordAt r.payload 0) 0 3, Nat.mod_lt _ (by decide)⟩
  let stopNow := highByte (wordAt r.payload 1)
  let assistNow := lowByte (wordAt r.payload 1)
  let stops := pushed p.stop.lastStop[z] stopNow
  let assists := pushed p.stop.lastAssist[z] assistNow
  let p' := { p with stop := { p.stop with
    lastStop := p.stop.lastStop.set z (some stopNow)
    lastAssist := p.stop.lastAssist.set z (some assistNow) } }
  if cabLive p && zoneIn (zoneMask p) z then
    if assists then assistancePush z p' else if stops then stopPush z p' else p'
  else p'

/-- Teardown (R145). -/
def stopTeardown (p : Part) : Part :=
  { p with stop := { p.stop with
    phase := .running
    request := false
    push := 0
    doorOpen := 0
    assistance := Vector.replicate 8 .clear } }

/-- ACTIVATING to ACTIVE (R145). -/
def stopEntersActive (p : Part) : Part := { p with stop := { p.stop with phase := .running } }

/-! ### Outputs (R143, R144) -/

def stopLamp (p : Part) : Bool := p.stop.request

/-- The zones whose assistance flag is pending, in either phase. -/
def assistanceBitmap (p : Part) : Nat :=
  (List.finRange 8).foldl (fun n z => n + bit (p.stop.assistance[z] != .clear) * 2 ^ z.val) 0

/-- The acknowledge value for zone `z` (R144). -/
def acknowledge (p : Part) (z : Fin 8) : Nat :=
  bit p.stop.request + 2 * bit (p.stop.assistance[z] != .clear) + 4 * bit (zoneIn p.stop.doorOpen z)

end Sys2Proof.Machine
end

