-- ==== Sys2Proof/Machine/JunctionUnit.lean ====
section
/-! DEFINITION. The junction unit (chapter 6): markers, route selection, the open junction list, point
reports, the release queue and the request arbiter. -/

namespace Sys2Proof.Machine

/-! ### The open junction list (R111, R112) -/

/-- The positions of the open junction list, in list order. -/
def positions : List (Fin 4) := [0, 1, 2, 3]

/-- The record at a list position. -/
def openAt (p : Part) (pos : Fin 4) : Option JunctionRecord := p.junction.list[pos]

def inFault (r : JunctionRecord) : Bool :=
  match r.state with
  | .fault _ => true
  | .requested | .confirmed | .committed => false

/-- At least one open record is in FAULT: the junction fault condition (R112). -/
def anyFault (list : Vector (Option JunctionRecord) 4) : Bool :=
  positions.any fun pos => (list[pos]).any inFault

/-- The junction fault condition as the sound unit holds it, after the list has changed: the junction
unit presents each beginning and each end (R112, R164). -/
def faultCondition (before after : Vector (Option JunctionRecord) 4) (held : Bool) : Bool :=
  if anyFault before = anyFault after then held else anyFault after

/-- The list replaced, with the beginning or end of the junction fault condition presented. -/
def withList (list : Vector (Option JunctionRecord) 4) (p : Part) : Part :=
  { p with
    junction := { p.junction with list := list }
    sound := { p.sound with
      junctionFault := faultCondition p.junction.list list p.sound.junctionFault } }

/-- A record written at a list position. -/
def putOpen (pos : Fin 4) (r : JunctionRecord) (p : Part) : Part :=
  withList (p.junction.list.set pos (some r)) p

/-- The position whose open record is for junction `j`. -/
def openFor (p : Part) (j : Six) : Option (Fin 4) :=
  positions.find? fun pos => (openAt p pos).any fun r => r.junction == j

/-- The lowest free position. -/
def freePosition (p : Part) : Option (Fin 4) := positions.find? fun pos => (openAt p pos).isNone

/-- The number of open records. -/
def openCount (p : Part) : Nat := positions.countP fun pos => (openAt p pos).isSome

/-- A record enters FAULT: count 0, confirmation set empty, its JUNCTION row at 0, ALARM requested
(R111, R112, R160). The distance is the one given. -/
def enterFault (pos : Fin 4) (r : JunctionRecord) (cause : JunctionFault) (p : Part) : Part :=
  request .alarm (setRow (.junction pos) 0
    (putOpen pos { r with state := .fault cause, count := 0, confirmed := 0 } p))

/-! ### The release queue and closing (R123, R124) -/

/-- A RELEASE joins the queue as the newest; a full queue loses its oldest (R124). -/
def appendRelease (x : Release) (p : Part) : Part :=
  if p.junction.queue.length < 4 then
    { p with junction := { p.junction with queue := p.junction.queue ++ [x] } }
  else
    setFlag .releaseLost { p with junction := { p.junction with queue := p.junction.queue.drop 1 ++ [x] } }

/-- The RELEASE of a record. -/
def releaseOf (p : Part) (r : JunctionRecord) : Release :=
  { address := BitVec.ofNat 8 (routeEntry p r.junction).address, route := r.route }

/-- A record closes (R123): its row is withdrawn, its RELEASE queued if its SET was sent, and its
position freed. -/
def closeRecord (pos : Fin 4) (r : JunctionRecord) (p : Part) : Part :=
  let p' := withdrawRow (.junction pos) p
  let q := if r.setSent then appendRelease (releaseOf p r) p' else p'
  withList (q.junction.list.set pos none) q

/-! ### Markers (R106, R107, R113, R120, R122) -/

/-- A REQUEST marker with the list full (R113): the OVERFLOW row at 0, presented to the sound unit, and
ALARM requested. -/
def overflowList (p : Part) : Part :=
  let q := setRow .overflow 0 p
  request .alarm { q with sound := { q.sound with overflow := true } }

/-- A record opens at a free position for junction `j` (R113). -/
def openRecord (pos : Fin 4) (j : Six) (e : RouteEntry) (p : Part) : Part :=
  let code := e.effective p.junction.selection
  let r : JunctionRecord := {
    junction := j
    route := code
    state := .requested
    count := 0
    confirmed := 0
    distance := 0
    setSent := false }
  if (e.route? code).isSome then setRow (.junction pos) e.unconfirmed (putOpen pos r p)
  else enterFault pos r .noRoute p

/-- A REQUEST marker for junction `j` (R113). -/
def requestMarker (j : Six) (e : RouteEntry) (p : Part) : Part :=
  match openFor p j with
  | some _ => p
  | none =>
    match freePosition p with
    | none => overflowList p
    | some pos => openRecord pos j e p

/-- A COMMIT marker for junction `j` (R120). -/
def commitMarker (j : Six) (p : Part) : Part :=
  match openFor p j with
  | none => setFlag .strayMarker p
  | some pos =>
    match openAt p pos with
    | none => p
    | some r =>
      match r.state with
      | .confirmed => putOpen pos { r with state := .committed, count := 0, distance := 0 } p
      | .committed | .fault .commitUnconfirmed => p
      | .requested | .fault _ => enterFault pos { r with distance := 0 } .commitUnconfirmed p

/-- A CLEAR marker for junction `j` (R122). -/
def clearMarker (j : Six) (p : Part) : Part :=
  match openFor p j with
  | none => p
  | some pos =>
    match openAt p pos with
    | none => p
    | some r => closeRecord pos r p

/-- A new marker acted on in ACTIVE or HOLD (R107). -/
def newMarker (id : Nat) (p : Part) : Part :=
  match lookupMarker p.tables.marker.words id with
  | none => setFlag .unknownMarker p
  | some m =>
    let e := routeEntry p m.junction
    if e.defined then
      match m.role with
      | .request => requestMarker m.junction e p
      | .commit => commitMarker m.junction p
      | .clear => clearMarker m.junction p
    else setFlag .unknownMarker p

/-- Markers have been missed (R106). -/
def markersMissed (p : Part) : Part := request .alarm (setFlag .markerMissed p)

/-- A store into the MARKER record (R106). -/
def markerStore (r : SlotRecord) (p : Part) : Part :=
  let counter := lowByte (wordAt r.payload 1)
  let id := bitsOf (wordAt r.payload 0) 0 12
  let p' := { p with junction := { p.junction with lastMarker := some counter } }
  match p.junction.lastMarker with
  | none => p'
  | some last =>
    if counter = last ∨ cabLive p = false then p'
    else if counter - last = 1 then newMarker id p'
    else newMarker id (markersMissed p')

/-! ### Route selection (R109, R115) -/

/-- One open record at a selection change (R115). -/
def selectFor (p : Part) (pos : Fin 4) : Part :=
  match openAt p pos with
  | none => p
  | some r =>
    let e := routeEntry p r.junction
    let code := e.effective p.junction.selection
    if code = r.route then p
    else
      match r.state with
      | .committed | .fault .commitUnconfirmed => setFlag .routeLocked p
      | .requested | .confirmed | .fault _ =>
        if (e.route? code).isSome then
          setRow (.junction pos) e.unconfirmed
            (putOpen pos { r with route := code, state := .requested, count := 0, confirmed := 0 } p)
        else p

/-- The selection takes a value; a change acts on the open records in ACTIVE and HOLD (R109, R115). -/
def select (selection : BitVec 4) (p : Part) : Part :=
  let p' := { p with junction := { p.junction with selection := selection } }
  if selection = p.junction.selection ∨ cabLive p = false then p'
  else positions.foldl selectFor p'

/-- A store into a record of function ROUTE_SELECT (R109). -/
def routeSelectStore (source : Fin 82) (r : SlotRecord) (p : Part) : Part :=
  select ((wordAt r.payload 0).extractLsb' 0 4)
    { p with junction := { p.junction with selectionFrom := some source } }

/-- No record has given the selection since the last reset, or the record that gave it is older than
10 (R109). The age is read at the test alone: where a TRANSFER has cleared the record and a store has filled
it again before the test, the selection is kept, though R109 has it fall to 0 at the next cycle start after
the clearing (DESIGN CHOICE, notes/assumptions/40.md). -/
def selectionIsStale (p : Part) : Bool :=
  match p.junction.selectionFrom with
  | some i => decide (10 < (recordAt p i).age)
  | none => true

/-- Step 2 of R110. -/
def testSelection (p : Part) : Part := if selectionIsStale p then select 0 p else p

/-! ### Point reports (R116 to R118) -/

/-- The fields of a POINT_STATUS report (section 11.2). -/
structure PointReport where
  address  : Nat
  point    : BitVec 3
  position : Nat
  locked   : Bool
  deriving DecidableEq, Repr, Inhabited

def pointReportOf (r : SlotRecord) : PointReport where
  address := bitsOf (wordAt r.payload 0) 0 8
  point := (wordAt r.payload 1).extractLsb' 8 3
  position := bitsOf (wordAt r.payload 1) 4 2
  locked := bitAt (wordAt r.payload 1) 0

/-- A setting is in agreement with a report: the position is the setting's (LEFT 1, RIGHT 2) and the
point is locked (R116). -/
def inAgreement (x : PointReport) (s : Setting) : Bool :=
  x.position == (if s.right then 2 else 1) && x.locked

/-- The report concerns a setting (R116). -/
def concerns (x : PointReport) (s : Setting) : Bool := s.point == x.point

/-- The confirmation set after a report, over the settings given from setting `i` on (R117). -/
def confirmSettings (x : PointReport) : List Setting → Nat → BitVec 3 → BitVec 3
  | [], _, set => set
  | s :: ss, i, set =>
    confirmSettings x ss (i + 1)
      (if concerns x s then
        (if inAgreement x s then set ||| (1#3 <<< i) else set &&& ~~~(1#3 <<< i))
      else set)

/-- The confirmation set holds every setting of a route of `n` settings. -/
def isComplete (n : Nat) (set : BitVec 3) : Bool := (List.range n).all fun i => set.getLsbD i

/-- A report that concerns a REQUESTED record (R117). -/
def reportRequested (x : PointReport) (pos : Fin 4) (r : JunctionRecord) (route : Route) (p : Part) :
    Part :=
  let set := confirmSettings x route.settings 0 r.confirmed
  if isComplete route.settings.length set then
    setRow (.junction pos) route.cap
      (putOpen pos { r with state := .confirmed, count := 0, confirmed := set } p)
  else putOpen pos { r with confirmed := set } p

/-- A report at one position (R116 to R118): it acts on the open record there if the address is that
of the record's junction and the point is in the record's route. Where the route names the point twice, one
setting not in agreement is enough for LOCK_LOST (DEDUCED, notes/assumptions/22.md). -/
def reportAt (x : PointReport) (p : Part) (pos : Fin 4) : Part :=
  match openAt p pos with
  | none => p
  | some r =>
    let e := routeEntry p r.junction
    match e.route? r.route with
    | none => p
    | some route =>
      if e.address = x.address ∧ route.settings.any (concerns x) then
        match r.state with
        | .requested => reportRequested x pos r route p
        | .confirmed =>
          if route.settings.any fun s => concerns x s && !inAgreement x s then
            enterFault pos r .lockLost p
          else p
        | .committed =>
          if route.settings.any fun s => concerns x s && !inAgreement x s then
            request .alarm (setFlag .lockLostUnder p)
          else p
        | .fault _ => p
      else p

/-- A store into a record of function POINT_STATUS (R116). -/
def pointStore (r : SlotRecord) (p : Part) : Part :=
  if cabLive p then positions.foldl (reportAt (pointReportOf r)) p else p

/-! ### Timeout and distance (R119, R121) -/

/-- The count of a REQUESTED record has reached its junction's request timeout, in ACTIVE or HOLD
(R119). -/
def requestIsDue (p : Part) (pos : Fin 4) : Bool :=
  match openAt p pos with
  | some r =>
    cabLive p && r.state == .requested && decide ((routeEntry p r.junction).timeout ≤ r.count)
  | none => false

/-- The record at a position enters FAULT(TIMEOUT) (R119). -/
def timeOut (pos : Fin 4) (p : Part) : Part :=
  match openAt p pos with
  | some r => enterFault pos r .timeout p
  | none => p

/-- Step 3 of R110 at one position. -/
def countRequest (p : Part) (pos : Fin 4) : Part :=
  match openAt p pos with
  | some r =>
    if r.state = .requested then
      let p' := putOpen pos { r with count := min 65535 (r.count + 1) } p
      if requestIsDue p' pos then timeOut pos p' else p'
    else p
  | none => p

/-- Whether a record counts distance (R121). -/
def countsDistance (r : JunctionRecord) : Bool :=
  match r.state with
  | .committed | .fault .commitUnconfirmed => true
  | _ => false

/-- A distance delta at one position (R121). -/
def addDistance (delta : Nat) (p : Part) (pos : Fin 4) : Part :=
  match openAt p pos with
  | some r =>
    if countsDistance r then
      let r' := { r with distance := min 65535 (r.distance + delta) }
      let p' := putOpen pos r' p
      if (routeEntry p r.junction).releaseDistance r.route ≤ r'.distance then closeRecord pos r' p'
      else p'
    else p
  | none => p

/-- A distance delta handed over by the traction unit; a delta of 0 changes nothing (R121). -/
def takeDistance (delta : Nat) (p : Part) : Part :=
  if delta = 0 then p else positions.foldl (addDistance delta) p

/-! ### ACK and the cycle start (R110, R114) -/

/-- A press of ACK_BTN recognised by the junction unit: it withdraws OVERFLOW in ACTIVE or HOLD, and
presents the withdrawal to the sound unit (R114). -/
def junctionAck (p : Part) : Part :=
  if cabLive p then
    let q := withdrawRow .overflow p
    { q with sound := { q.sound with
      overflow := if p.caps.overflow.isSome then false else p.sound.overflow } }
  else p

/-- Step 1 of R110. -/
def sampleJunctionAck (p : Part) : Part :=
  let p' := { p with junction := { p.junction with
    ackBtn := sampled p.junction.ackBtn p.lines.ackBtn } }
  if recognises p.junction.ackBtn p.lines.ackBtn && p.lines.ackBtn then junctionAck p' else p'

/-- The junction unit's work at a cycle start (R110). -/
def junctionCycle (p : Part) : Part :=
  positions.foldl countRequest (testSelection (sampleJunctionAck p))

/-! ### The request arbiter (R125, R126) -/

/-- An item for the POINT_REQUEST_OUT slot, as its three words (section 11.3). -/
def releaseWords (x : Release) : List Word :=
  [word (2 * 256 + x.address.toNat), word (x.route.toNat * 256), 0]

/-- Setting `i` of a SET in its group of the packed word, 0 beyond the count. -/
def settingWord : List Setting → Nat → Nat
  | [], _ => 0
  | s :: ss, scale => (s.point.toNat * 2 + bit s.right) * scale + settingWord ss (scale / 16)

def setWords (e : RouteEntry) (r : JunctionRecord) : List Word :=
  let settings := match e.route? r.route with
    | some route => route.settings
    | none => []
  [word (256 + e.address % 256), word (r.route.toNat * 256 + settings.length),
   word (settingWord settings 256)]

/-- The positions in the order of the arbiter's search from `pos`, wrapping from 3 to 0. -/
def searchFrom (pos : Fin 4) : List (Fin 4) := [pos, pos + 1, pos + 2, pos + 3]

/-- Whether the record at a position is in REQUESTED. -/
def isRequested (p : Part) (pos : Fin 4) : Bool :=
  (openAt p pos).any fun r => r.state == .requested

/-- A SET is given for the record at a position: its SET sent becomes yes and the arbiter moves to the
position after it (R125). -/
def giveSet (pos : Fin 4) (p : Part) : Part × Option (List Word) :=
  match openAt p pos with
  | none => (p, none)
  | some r =>
    let q := putOpen pos { r with setSent := true } p
    ({ q with junction := { q.junction with arbiter := pos + 1 } },
      some (setWords (routeEntry p r.junction) r))

/-- The item the arbiter gives at an opening that asks for one (R125). -/
def nextItem (p : Part) : Part × Option (List Word) :=
  match p.junction.queue with
  | x :: xs => ({ p with junction := { p.junction with queue := xs } }, some (releaseWords x))
  | [] =>
    match (searchFrom p.junction.arbiter).find? (isRequested p) with
    | some pos => giveSet pos p
    | none => (p, none)

/-! ### Teardown (R129) -/

/-- Step 1 of R129 at one position. -/
def discard (p : Part) (pos : Fin 4) : Part :=
  match openAt p pos with
  | none => p
  | some r =>
    let q := if r.setSent then appendRelease (releaseOf p r) p else p
    let q' := withdrawRow (.junction pos) q
    withList (q'.junction.list.set pos none) q'

/-- Teardown in the junction unit (R129). -/
def junctionTeardown (p : Part) : Part :=
  let q := withdrawRow .overflow (positions.foldl discard p)
  let q' := { q with sound := { q.sound with
    overflow := if p.caps.overflow.isSome then false else q.sound.overflow } }
  let q'' := setFlagIf (!q'.junction.queue.isEmpty) .releaseDropped q'
  { q'' with junction := { q''.junction with queue := [], arbiter := 0 } }

end Sys2Proof.Machine
end

