-- ==== Sys2Proof/Machine/TractionUnit.lean ====
section
/-! DEFINITION. The traction unit (chapter 5): handle, speed and the speed lock, distance, the
emergency latch, low adhesion, the envelope, and the four stages of the evaluation. -/

namespace Sys2Proof.Machine

/-! ### Inputs (R80 to R89) -/

/-- Clamped to -1000 to +1000 (R80). -/
def clampHandle (i : Int) : Int := max (-1000) (min 1000 i)

/-- The handle value H of a stored word (R80). -/
def handleOf (w : Word) : Int := clampHandle w.toInt

/-- A store into the HANDLE record sets HANDLE_RANGE where the word lies outside -1000 to +1000 (R80). -/
def handleRange (r : SlotRecord) (p : Part) : Part :=
  let i := (wordAt r.payload 0).toInt
  setFlagIf (decide (i < -1000) || decide (1000 < i)) .handleRange p

/-- The HANDLE record is fresh (R81). -/
def handleFresh (p : Part) : Bool := freshWithin p .handle (handleStale p)

/-- H (R80). -/
def handleValue (p : Part) : Int := handleOf (fnWord p .handle 0)

/-- The SPEED record is fresh (R82). -/
def speedFresh (p : Part) : Bool := freshWithin p .speed (speedStale p)

/-- The distance delta of a new count (R86). -/
def distanceDelta (previous : Option Word) (count : Word) : Nat :=
  match previous with
  | none => 0
  | some prev => (count - prev).toNat

/-- A store into the SPEED record (R82, R86): SPEED_RANGE, the distance delta with DIST_JUMP, and the
delta handed to the junction unit. -/
def speedStore (r : SlotRecord) (p : Part) : Part :=
  let count := wordAt r.payload 1
  let delta := distanceDelta p.traction.prevDistance count
  let q := setFlagIf (decide (1000 < (wordAt r.payload 0).toNat)) .speedRange p
  let q' := setFlagIf (decide (1000 < delta)) .distJump q
  takeDistance (if 1000 < delta then 0 else delta)
    { q' with traction := { q'.traction with prevDistance := some count } }

/-- Step 1 of R79 (R89). -/
def sampleLowAdh (p : Part) : Part :=
  { p with traction := { p.traction with lowAdh := sampled p.traction.lowAdh p.lines.lowAdh } }

/-- The SPEED_LOCK row is set at creep_cap where R84 allows it: in ACTIVATING, ACTIVE and HOLD. -/
def setLockRow (p : Part) : Part := if cabActs p then setRow .speedLock (creepCap p) p else p

/-- A LOCKED speed lock finds the record stale (R83, last row). -/
def speedGoesStale (p : Part) : Part :=
  setLockRow { p with traction := { p.traction with locked := false, lockCount := 0 } }

/-- The lock count has reached lock_count (R83, first row): LOCKED, and the row withdrawn. -/
def speedLocks (p : Part) : Part :=
  withdrawRow .speedLock { p with traction := { p.traction with locked := true } }

/-- The speed source is seen stale by a LOCKED lock that is being updated (R82, R83, R85). -/
def speedLockIsLost (p : Part) : Bool :=
  !p.traction.suspended && p.traction.locked && !speedFresh p

/-- An UNLOCKED lock that is being updated has counted lock_count fresh records (R83, R85). -/
def speedLockIsDue (p : Part) : Bool :=
  !p.traction.suspended && !p.traction.locked && speedFresh p
    && decide (lockCountNeeded p ≤ p.traction.lockCount)

/-- The speed lock at a cycle start (R83). -/
def updateLock (p : Part) : Part :=
  if p.traction.locked then (if speedFresh p then p else speedGoesStale p)
  else if speedFresh p then
    let q := { p with traction := { p.traction with lockCount := min 15 (p.traction.lockCount + 1) } }
    if speedLockIsDue q then speedLocks q else q
  else { p with traction := { p.traction with lockCount := 0 } }

/-- v_eff at a cycle start (R82). -/
def updateSpeed (p : Part) : Part :=
  if speedFresh p then
    { p with traction := { p.traction with vEff := min 1000 (fnWord p .speed 0).toNat } }
  else p

/-- Step 2 of R79; suspended supervision takes no speed (R85). -/
def speedInput (p : Part) : Part := if p.traction.suspended then p else updateLock (updateSpeed p)

/-- The EMERGENCY record is fresh: its age is at most 3 (R87). -/
def emergencyFresh (p : Part) : Bool := freshWithin p .emergency 3

/-- The emergency condition is active (R87). -/
def emergencyActive (p : Part) : Bool := emergencyFresh p && bitAt (fnWord p .emergency 0) 0

/-- The emergency latch at an evaluation (R88). -/
def latchAfter (p : Part) : Bool :=
  if emergencyActive p then true
  else if handleFresh p && decide (handleValue p ≤ -900) then false
  else p.traction.latch

/-! ### The envelope (R90 to R93) -/

/-- The breakpoints in use. -/
def usedBreakpoints (p : Part) : List Breakpoint :=
  (breakpoints p.tables.envelope.words).take (envelopeCount p)

/-- Whether region L exists (R90). -/
def lowRegionExists (p : Part) : Bool := envelopeSplit p < 16 && envelopeSplit p < envelopeCount p

/-- Region N (R90). -/
def regionN (p : Part) : List Breakpoint :=
  if lowRegionExists p then (usedBreakpoints p).take (envelopeSplit p) else usedBreakpoints p

/-- Region L, empty where it does not exist (R90). -/
def regionL (p : Part) : List Breakpoint :=
  if lowRegionExists p then (usedBreakpoints p).drop (envelopeSplit p) else []

/-- The speeds of the breakpoints are strictly ascending. -/
def ascending : List Breakpoint → Bool
  | a :: b :: rest => decide (a.s < b.s) && ascending (b :: rest)
  | _ => true

/-- The conditions of R91. -/
def envelopeIsValid (p : Part) : Bool :=
  decide (1 ≤ envelopeCount p)
    && (envelopeSplit p == 16 || decide (envelopeSplit p ≤ envelopeCount p))
    && ascending (regionN p) && ascending (regionL p)

/-- The validity mark is recomputed (R91). -/
def markEnvelope (p : Part) : Part :=
  { p with tables := { p.tables with envelopeValid := envelopeIsValid p } }

/-- A limit between two breakpoints: the term is truncated toward zero (R92). -/
def interpolate (v sa la sb lb : Nat) : Int :=
  (la : Int) + Int.tdiv (((lb : Int) - la) * ((v : Int) - sa)) ((sb : Int) - sa)

/-- T and B at a speed over a region's breakpoints (R92). -/
def limitsOver (v : Nat) : List Breakpoint → Int × Int
  | [] => (min 1000 (Config.damagedLimits v).1, min 1000 (Config.damagedLimits v).2)
  | [a] => (a.t, a.b)
  | a :: b :: rest =>
    if v ≤ a.s then (a.t, a.b)
    else if v < b.s then (interpolate v a.s a.t b.s b.t, interpolate v a.s a.b b.s b.b)
    else limitsOver v (b :: rest)

/-- T and B at the evaluation (R90, R92, R93). -/
def limits (p : Part) : Int × Int :=
  if p.tables.envelopeValid then
    if p.traction.lowAdh.value && lowRegionExists p then limitsOver p.traction.vEff (regionL p)
    else limitsOver p.traction.vEff (regionN p)
  else (fallbackTraction p, fallbackBrake p)

/-! ### The four stages (R94 to R98) -/

/-- The outcome of stage 2 (R95). -/
inductive Supervision where
  | none | cut | forced
  deriving DecidableEq, Repr, Inhabited

/-- The target with its reason. -/
structure Target where
  x      : Int
  reason : Reason
  deriving DecidableEq, Repr, Inhabited

/-- The last case of stage 1: the handle, or the stale handle's brake (R81, R94). -/
def handleTarget (p : Part) : Target :=
  if handleFresh p then { x := handleValue p, reason := .handle }
  else { x := -(staleBrake p : Int), reason := .staleHandle }

/-- The outcome of stage 2 (R95). -/
def supervise (v cap margin : Nat) (episode : Bool) : Supervision :=
  if cap + margin ≤ v then .forced
  else if cap ≤ v then (if episode then .forced else .cut)
  else .none

/-- The effect of stage 2 on the target (R95). -/
def superviseTarget (outcome : Supervision) (force : Nat) (t : Target) : Target :=
  match outcome with
  | .forced => { x := -(force : Int), reason := .forced }
  | .cut => { x := min t.x 0, reason := if 0 < t.x then .cut else t.reason }
  | .none => t

/-- Stage 3 (R97). -/
def shape (lim : Int × Int) (t : Target) : Target :=
  if 0 < t.x ∧ lim.1 < t.x then { x := lim.1, reason := .envelopeT }
  else if t.x < 0 ∧ t.x < -lim.2 then { x := -lim.2, reason := .envelopeB }
  else t

/-- Stage 4 (R98). -/
def ramp (outcome : Supervision) (dPrev up down : Int) (t : Target) : Target :=
  match outcome with
  | .cut | .forced => t
  | .none =>
    let d := if dPrev < t.x then min t.x (dPrev + up)
      else if t.x < dPrev then max t.x (dPrev - down) else t.x
    { x := d, reason := if d = t.x then t.reason else .ramp }

/-- D with its reason, from the handle's target through stages 2 to 4. -/
def fourStages (p : Part) : Target :=
  let outcome := supervise p.traction.vEff (permittedSpeed p) (overspeedMargin p) p.traction.episode
  ramp outcome p.traction.dPrev (rampUp p) (rampDown p)
    (shape (limits p) (superviseTarget outcome (forceBrake p) (handleTarget p)))

/-- D with its reason: the cases of stage 1 in order (R94). -/
def demandOf (p : Part) : Target :=
  if p.cab.state = .activating then { x := -1000, reason := .activating }
  else if p.cab.state = .hold then { x := -(holdBrake p : Int), reason := .hold }
  else if p.traction.latch then { x := -1000, reason := .emergency }
  else fourStages p

/-! ### The evaluation (R78, R100) -/

/-- The emergency condition and the latch (R87, R88), and the flag of a stale handle (R81). -/
def judgeInputs (p : Part) : Part :=
  let q := setFlagIf (!emergencyFresh p) .emergStale p
  let q' := setFlagIf (!handleFresh p) .handleStale q
  { q' with traction := { q'.traction with latch := latchAfter p } }

/-- The envelope alarm at an evaluation in ACTIVE (R91), presented to the sound unit (R101). -/
def judgeEnvelope (p : Part) : Part :=
  if p.cab.state = .active then
    let bad := !p.tables.envelopeValid
    let q := setFlagIf bad .envelopeInvalid p
    { q with
      traction := { q.traction with envelopeAlarm := bad }
      sound := { q.sound with
        envelope := if bad = p.traction.envelopeAlarm then p.sound.envelope else bad } }
  else p

/-- A forced episode begins: OVERSPEED, ALARM, and its beginning presented to the sound unit (R96). -/
def beginEpisode (p : Part) : Part :=
  let q := setFlag .overspeed p
  request .alarm { q with
    traction := { q.traction with episode := true }
    sound := { q.sound with forced := true } }

/-- A forced episode ends, and its end is presented (R96). -/
def endEpisode (p : Part) : Part :=
  { p with
    traction := { p.traction with episode := false }
    sound := { p.sound with forced := if p.traction.episode then false else p.sound.forced } }

/-- The forced episode at an evaluation in ACTIVE (R96): it begins where stage 2 is made and finds v_eff
at least P + M, and ends where v_eff is below P. -/
def judgeEpisode (p : Part) : Part :=
  if p.cab.state = .active then
    if p.traction.vEff < permittedSpeed p then endEpisode p
    else if !p.traction.latch && !p.traction.episode
        && decide (permittedSpeed p + overspeedMargin p ≤ p.traction.vEff) then beginEpisode p
    else p
  else p

/-- Steps 1 and 2 of R100. -/
def finish (p : Part) : Part :=
  let t := demandOf p
  { p with traction := { p.traction with
    dPrev := t.x
    demand := {
      d := t.x
      reason := t.reason
      source := capSource p
      p := permittedSpeed p
      v := p.traction.vEff } } }

/-- The evaluation (R78), less its presentation to the cab authority (step 3 of R100). -/
def evaluate (p : Part) : Part := finish (judgeEpisode (judgeEnvelope (judgeInputs p)))

/-! ### Changes of cab state (R102) -/

/-- Entry to ACTIVATING (R84, R78); the cab state is already ACTIVATING. -/
def tractionActivates (p : Part) : Part :=
  evaluate (if p.traction.locked then p else setRow .speedLock (creepCap p) p)

/-- The episode and the envelope alarm end at a change of cab state out of ACTIVE (R91, R96). -/
def endAlarms (p : Part) : Part :=
  let q := endEpisode p
  { q with
    traction := { q.traction with envelopeAlarm := false }
    sound := { q.sound with
      envelope := if q.traction.envelopeAlarm then false else q.sound.envelope } }

/-- ACTIVATING to INACTIVE (R102). -/
def tractionReturns (p : Part) : Part :=
  withdrawRow .speedLock { p with traction := { p.traction with dPrev := -1000, latch := false } }

/-- ACTIVE to HOLD (R85, R102), with the latched hold exit mode. -/
def tractionHolds (p : Part) : Part :=
  let q := endAlarms p
  { q with traction := { q.traction with suspended := q.cab.holdMode == .slow } }

/-- HOLD to ACTIVE (R85), with the latched hold exit mode. -/
def tractionResumes (p : Part) : Part :=
  match p.cab.holdMode with
  | .fast => p
  | .slow =>
    setRow .speedLock (creepCap p)
      { p with traction := { p.traction with suspended := false, locked := false, lockCount := 0 } }

/-- Teardown (R102). The supervision mode is NORMAL at once; from HOLD SLOW the speed input is updated again
from the next cycle start (R85, `tractionInputs`). -/
def tractionTeardown (p : Part) : Part :=
  let q := tractionReturns (endAlarms p)
  { q with traction := { q.traction with suspended := false } }

/-! ### The DEMAND_OUT content (section 11.3) -/

def demandWords (p : Part) : List Word :=
  let c := p.traction.demand
  [signedWord c.d, word (reasonCode c.reason * 256 + rowCode c.source), word c.p, word c.v]

end Sys2Proof.Machine
end

