-- ==== Sys2Proof/Machine/CabAuthority.lean ====
section
/-! DEFINITION. The cab authority (chapter 3): the desk lines, the other cab, activation, pending
exits, HOLD, teardown and STABLED. -/

namespace Sys2Proof.Machine

/-! ### Ends of activation (R55, R56) -/

/-- ACTIVATING to INACTIVE (R56), presented to the traction unit (R102) and the sound unit (R165). -/
def activationEnds (p : Part) : Part :=
  soundOff (tractionReturns { p with cab := { p.cab with
    state := .inactive
    stage := .none
    table := none
    count := 0
    pending := .none } })

/-- A failure that sets ACT_FAULT, with the fault record the failing rule gives (R56). -/
def activationFails (cause : FaultCause) (stage : Stage) (table : Option TableId) (p : Part) : Part :=
  let q := setFlag .actFault p
  activationEnds { q with cab := { q.cab with fault := { cause := cause, stage := stage, table := table } } }

/-- ACTIVATING to INACTIVE with CAB_CONFLICT (R55). -/
def activationYields (p : Part) : Part := activationEnds (setFlag .cabConflict p)

/-! ### Beginning of activation (R49, R78) -/

/-- The cab state becomes ACTIVATING at SETTLE, count 0, with the settle length given (R49, R65). -/
def beginActivation (settle : Nat) (p : Part) : Part :=
  tractionActivates { p with cab := { p.cab with
    state := .activating
    stage := .settle
    table := none
    count := 0
    settleLength := settle
    pending := .none
    driveRequest := false } }

/-- The other-cab view lets this cab activate: INACTIVE or STABLED (R49, R65). -/
def viewIsClear (v : CabState) : Bool :=
  match v with
  | .inactive | .stabled => true
  | .activating | .active | .hold => false

/-- An activation attempt is due (R49). -/
def attemptIsDue (p : Part) : Bool :=
  p.cab.state == .inactive && p.cab.driveRequest && !lineLost p

/-- The attempt (R49). -/
def attempt (p : Part) : Part :=
  if viewIsClear p.cab.view then beginActivation (actSettle p) p
  else setFlag .cabConflict { p with cab := { p.cab with driveRequest := false } }

/-- The attempt is made where it is due. -/
def attemptIfDue (p : Part) : Part := if attemptIsDue p then attempt p else p

/-! ### Leaving STABLED (R65) -/

/-- A pending exit of STABLED can be taken: no scrub pass runs, and for DRIVE the line is not lost. -/
def stabledExitIsDue (p : Part) : Bool :=
  p.cab.state == .stabled && p.cab.scrubPass.isNone &&
    (match p.cab.pending with
     | .wake => true
     | .drive => !lineLost p
     | .none | .hold | .off => false)

/-- The exit is taken (R65). -/
def leaveStabled (p : Part) : Part :=
  let toInactive : Part := { p with cab := { p.cab with state := .inactive, pending := .none } }
  if p.cab.pending = .drive then
    if viewIsClear p.cab.view then beginActivation (stableSettle p) p
    else setFlag .cabConflict toInactive
  else toInactive

def leaveStabledIfDue (p : Part) : Part := if stabledExitIsDue p then leaveStabled p else p

/-! ### HOLD and teardown (R60 to R62) -/

/-- Teardown (R62). -/
def teardown (p : Part) : Part :=
  let q : Part := { p with cab := { p.cab with
    state := .inactive
    pending := .none
    stage := .none
    table := none
    count := 0 } }
  tractionTeardown (soundOff (stopTeardown (junctionTeardown (setRow .cab 0 q))))

/-- The entry to HOLD (R60). -/
def enterHold (p : Part) : Part :=
  let q : Part := { p with cab := { p.cab with
    state := .hold
    pending := .none
    holdMode := holdExit p } }
  soundHold (tractionHolds (setRow .cab 0 q))

/-- The return from HOLD to ACTIVE (R61). -/
def returnFromHold (p : Part) : Part :=
  tractionResumes (withdrawRow .cab { p with cab := { p.cab with state := .active } })

/-! ### Pending exits in ACTIVE (R58, R59) -/

/-- The pending exit is taken: HOLD to HOLD, OFF through teardown (R59). -/
def takeExit (p : Part) : Part :=
  match p.cab.pending with
  | .hold => enterHold p
  | .off => teardown p
  | .none | .wake | .drive => p

/-- An exit waits in ACTIVE (R58). -/
def exitWaits (p : Part) : Bool :=
  p.cab.state == .active && (p.cab.pending == .hold || p.cab.pending == .off)

/-- The latest evaluation had v_eff 0 and D at most 0 (R58). -/
def isAtRest (p : Part) : Bool := p.traction.demand.v == 0 && decide (p.traction.demand.d ≤ 0)

/-- The traction unit presents v_eff and D of an evaluation: a waiting exit is taken at v_eff 0 (R59, step 3
of R100). -/
def presentEvaluation (p : Part) : Part :=
  if exitWaits p && p.traction.demand.v == 0 then takeExit p else p

/-- A waiting exit, with the latest evaluation at rest (R59). An evaluation presented while the exit waits
has D at most 0, since the CAB row holds P at 0 (R48, R95): one with v_eff 0 and D above 0 came before the
exit was set, and the exit waits for the next (R58). -/
def exitIsDue (p : Part) : Bool := exitWaits p && isAtRest p

/-- KEY recognised at HOLD or OFF in ACTIVE (R58). -/
def keyLeavesDrive (x : PendingExit) (p : Part) : Part :=
  let q : Part := { p with cab := { p.cab with pending := x } }
  if p.cab.pending = .none then
    if isAtRest p then takeExit q
    else setFlag .keyMoving (setRow .cab 0 q)
  else q

/-- KEY recognised at DRIVE in ACTIVE: a waiting exit is cancelled (R58). -/
def keyReturnsToDrive (p : Part) : Part :=
  if p.cab.pending = .none then p
  else withdrawRow .cab { p with cab := { p.cab with pending := .none } }

/-! ### The desk lines (R44, R45) -/

/-- The pending exit a KEY value asks for in ACTIVE. -/
def exitFor : Key → PendingExit
  | .off => .off
  | .hold => .hold
  | .drive => .none

/-- A recognition of KEY, by cab state (R49, R55, R58, R61, R65). -/
def keyRecognised (key : Key) (p : Part) : Part :=
  match p.cab.state with
  | .inactive =>
    attemptIfDue { p with cab := { p.cab with driveRequest := key == .drive } }
  | .activating => if key = .drive then p else activationEnds p
  | .active => if key = .drive then keyReturnsToDrive p else keyLeavesDrive (exitFor key) p
  | .hold =>
    match key with
    | .drive => returnFromHold p
    | .off => teardown p
    | .hold => p
  | .stabled =>
    if key = .drive then leaveStabledIfDue { p with cab := { p.cab with pending := .drive } }
    else if p.cab.pending = .drive then { p with cab := { p.cab with pending := .none } }
    else p

/-- The cab authority samples KEY and END at a cycle start (R44, R45). -/
def deskCycle (p : Part) : Part :=
  let key := keyOf p.lines.key
  let q : Part := { p with cab := { p.cab with
    key := sampled p.cab.key key
    cabEnd := sampled p.cab.cabEnd (endOf p.lines.aft) } }
  if recognises p.cab.key key then keyRecognised key q else q

/-! ### The other cab (R46, R55, R57) -/

/-- The OTHER_CAB record is older than 5, or no enabled entry has the function (R46). -/
def otherCabIsSilent (p : Part) : Bool := !freshWithin p .otherCab 5

/-- The view the records give (R46). -/
def derivedView (p : Part) : CabState :=
  if otherCabIsSilent p then .inactive else cabStateOf (bitsOf (fnWord p .otherCab 0) 12 4)

/-- A change of the view while ACTIVE, or a view found at the entry to ACTIVE (R57). -/
def conflictInActive (v : CabState) (p : Part) : Part :=
  if v = .inactive then p else request .alarm (setFlag .cabConflict p)

/-- A change of the view presented to the state rules (R55, R57). -/
def viewChanged (v : CabState) (p : Part) : Part :=
  match p.cab.state with
  | .activating =>
    match v with
    | .active | .hold => activationYields p
    | .activating => if p.cab.cabEnd.value = .aft then activationYields p else p
    | .inactive | .stabled => p
  | .active => conflictInActive v p
  | .hold => if v = .inactive then p else setFlag .cabConflict p
  | .inactive | .stabled => p

/-- The view becomes a value; only a change is an event (R46). -/
def takeView (v : CabState) (p : Part) : Part :=
  if v = p.cab.view then p else viewChanged v { p with cab := { p.cab with view := v } }

/-- The view is derived again, at a store and at each cycle start (R46). -/
def deriveView (p : Part) : Part := takeView (derivedView p) p

/-! ### The activation stages (R50 to R54) -/

/-- SETTLE ends: TABLE_CHECK at SLOT, count 0 (R50). -/
def settleEnds (p : Part) : Part :=
  { p with cab := { p.cab with stage := .tableCheck, table := some .slot, count := 0 } }

/-- BRAKE_TEST has counted 1000 (R53). -/
def brakeTestFails (p : Part) : Part := activationFails .brakeTimeout .brakeTest none p

/-- The entry to ACTIVE (R54). -/
def enterActive (p : Part) : Part :=
  let q : Part := withdrawRow .cab { p with cab := { p.cab with
    state := .active
    stage := .none
    table := none
    count := 0
    pending := .none } }
  let q' := if departureWarning p then request .depart q else q
  conflictInActive p.cab.view (stopEntersActive q')

/-- One table is checked (R51). The content read is that of the table when the check is taken. At a cycle
start at which a transfer to the table completes, R52 has either taken first while a sentence of R51 has the
check made with the transfer's result: the model follows R52 (DESIGN CHOICE, notes/assumptions/39.md). -/
def checkTable (t : TableId) (p : Part) : Part :=
  if !structureOk p.tables t then activationFails .structure .tableCheck (some t) p
  else if !sumOk (tableAt p.tables t) then activationFails .sum .tableCheck (some t) p
  else
    match tableAfter t with
    | some next => { p with cab := { p.cab with table := some next } }
    | none => { p with cab := { p.cab with stage := .brakeTest, table := none, count := 0 } }

/-- The settle count has reached the settle length (R50). -/
def settleIsOver (p : Part) : Bool :=
  p.cab.state == .activating && p.cab.stage == .settle && decide (p.cab.settleLength ≤ p.cab.count)

/-- The BRAKE_TEST count has reached 1000 (R53). -/
def brakeTestIsOver (p : Part) : Bool :=
  p.cab.state == .activating && p.cab.stage == .brakeTest && decide (1000 ≤ p.cab.count)

/-- The SPEED_LOCK stage count has reached lock_count (R54). -/
def speedLockStageIsOver (p : Part) : Bool :=
  p.cab.state == .activating && p.cab.stage == .speedLock && decide (lockCountNeeded p ≤ p.cab.count)

/-- The stage count one up. -/
def countStage (p : Part) : Part := { p with cab := { p.cab with count := p.cab.count + 1 } }

/-- The activation stage at a cycle start, in ACTIVATING (R50, R51, R53, R54). -/
def stageCycle (p : Part) : Part :=
  match p.cab.stage with
  | .none => p
  | .settle => let q := countStage p; if settleIsOver q then settleEnds q else q
  | .tableCheck =>
    match p.cab.table with
    | some t => checkTable t p
    | none => p
  | .brakeTest => let q := countStage p; if brakeTestIsOver q then brakeTestFails q else q
  | .speedLock =>
    if speedFresh p then let q := countStage p; if speedLockStageIsOver q then enterActive q else q
    else { p with cab := { p.cab with count := 0 } }

/-- A HANDLE store in BRAKE_TEST (R53). -/
def brakeTestStore (r : SlotRecord) (p : Part) : Part :=
  if p.cab.state = .activating ∧ p.cab.stage = .brakeTest ∧ handleOf (wordAt r.payload 0) ≤ -900 then
    { p with cab := { p.cab with stage := .speedLock, count := 0 } }
  else p

/-- Whether a table has passed its check in the activation in progress (R52). -/
def hasPassed (p : Part) (t : TableId) : Bool :=
  match p.cab.stage with
  | .none | .settle => false
  | .tableCheck =>
    match p.cab.table with
    | some u => decide (tableCode t < tableCode u)
    | none => false
  | .brakeTest | .speedLock => true

/-- The table store presents a committed change to a table (R52). -/
def tableChanged (t : TableId) (p : Part) : Part :=
  if p.cab.state = .activating ∧ hasPassed p t then activationFails .tableChanged p.cab.stage (some t) p
  else p

/-! ### The line (R18, R49, R55, R65) -/

/-- The two presentations of the line interface. -/
inductive LossChange where
  | lost | ended
  deriving DecidableEq, Repr, Inhabited

/-- The loss of the line, or its end, is presented. -/
def presentLoss (x : Option LossChange) (p : Part) : Part :=
  match x with
  | none => p
  | some .lost =>
    if p.cab.state = .activating then activationFails .lineLost p.cab.stage p.cab.table p else p
  | some .ended => leaveStabledIfDue (attemptIfDue p)

/-! ### STABLED (R63, R64) -/

/-- The entry to STABLED (R63). -/
def enterStabled (p : Part) : Part :=
  { p with cab := { p.cab with
    state := .stabled
    pending := .none
    scrubCount := 0
    scrubPass := none
    driveRequest := false } }

/-- One table's sum in a scrub pass; after ROUTE the pass ends (R64). -/
def scrubTable (t : TableId) (p : Part) : Part :=
  let x := tableAt p.tables t
  let bad := !sumMatches x
  let q := setFlagIf bad .tableFault p
  { q with
    tables := if bad then putTable q.tables t { x with faulty := true } else q.tables
    cab := { q.cab with scrubPass := tableAfter t } }

/-- The scrub count has reached scrub_interval and no pass runs (R64). -/
def scrubIsDue (p : Part) : Bool :=
  p.cab.state == .stabled && p.cab.scrubPass.isNone && decide (scrubInterval p ≤ p.cab.scrubCount)

/-- A scrub pass begins with SLOT, and the count returns to 0 (R64). -/
def beginScrub (p : Part) : Part :=
  scrubTable .slot { p with cab := { p.cab with scrubCount := 0 } }

/-- The scrub at a cycle start, in STABLED; the exit that a pass has held back is taken where the pass
ends (R64, R65). -/
def scrubCycle (p : Part) : Part :=
  if p.cab.state = .stabled then
    let q : Part := { p with cab := { p.cab with scrubCount := min 4095 (p.cab.scrubCount + 1) } }
    match p.cab.scrubPass with
    | some t => leaveStabledIfDue (scrubTable t q)
    | none => if scrubIsDue q then beginScrub q else q
  else p

/-! ### The CAB_STATUS_OUT content (R47, section 11.3) -/

/-- Cab state, pending exit and activation stage, as CAB_STATUS word 0. -/
def cabStatusWord (c : CabAuthority) : Nat :=
  cabStateCode c.state * 4096 + pendingCode c.pending * 256 + stageCode c.stage * 16

def cabStatusWords (p : Part) : List Word :=
  [word (cabStatusWord p.cab),
   word (endCode p.cab.cabEnd.value * 256 + keyCode p.cab.key.value)]

end Sys2Proof.Machine
end

