-- ==== Sys2Proof/Machine/TableStore.lean ====
section
/-! DEFINITION. The table store (chapter 9): committed changes, the write gates, the staging buffer, the
envelope pointer, and the locks. -/

namespace Sys2Proof.Machine

/-! ### Committed changes (R168, R170) -/

/-- The table with an entry's words replaced, its reference sum recomputed and its FAULTY mark clear. -/
def committed (t : TableId) (index : Nat) (image : List Word) (x : Table) : Table :=
  let words := overwrite x.words (entryStart t index) image
  { x with words := words, ref := tableSum words, faulty := false }

/-- The record of a slot table entry is cleared (R35). -/
def clearEntryRecord (index : Nat) (p : Part) : Part :=
  if h : index < 82 then putRecord ⟨index, h⟩ SlotRecord.cleared p else p

/-- The blocks other than the cab authority to which a committed change is presented (R168). A change to
SLOT can make the door status stale or end its staleness (R132); the DOORS row is not tested here but at the
next event that R133 lists, though R133 also has the row stand as its condition requires at every moment
(DESIGN CHOICE, notes/assumptions/37.md). -/
def presentChange (t : TableId) (index : Nat) (p : Part) : Part :=
  match t with
  | .slot => clearEntryRecord index p
  | .envelope => markEnvelope p
  | .param => testDoors (markEnvelope (setRow .line (lineCap p) p))
  | .cadence | .marker | .route => p

/-- A committed change (R168). -/
def commit (t : TableId) (index : Nat) (image : List Word) (p : Part) : Part :=
  tableChanged t (presentChange t index
    { p with tables := putTable p.tables t (committed t index image (tableAt p.tables t)) })

/-! ### The write gates (R174) -/

/-- The gates tested at acceptance and again at completion, in order: the first that fails. -/
def writeGate (t : TableId) (index : Nat) (p : Part) : Option Result :=
  if (tableAt p.tables t).lock ≠ .unlocked then some .locked
  else if t = .slot ∧ p.cab.state ≠ .inactive then some .unsafeState
  else if t ≠ .slot ∧ cabLive p = true ∧ p.traction.demand.v ≠ 0 then some .unsafeState
  else if t = .route ∧ (openFor p (BitVec.ofNat 6 index)).isSome = true then some .inUse
  else none

/-- The table that a TRANSFER can write and an argument names: ENVELOPE is not among them (R176). -/
def stagedTable (table : Word) : Option TableId :=
  match tableOf table with
  | some .envelope => none
  | x => x

/-- The gates of a TRANSFER at its acceptance, for a table it can write (R174). -/
def transferGate (t : TableId) (index : Nat) (p : Part) : Option Result :=
  if entryCount t ≤ index then some .range
  else
    match writeGate t index p with
    | some r => some r
    | none =>
      if imageInRange t index (p.tables.front.take (entrySize t index)) then none else some .range

/-! ### The staging buffer (R176, R177) -/

/-- The transfer in the back. -/
def outstanding (ts : TableStore) : Option Transfer :=
  match ts.staging with
  | .free => none
  | .busy back | .pending back _ => some back

/-- WRITE_STAGE (R176). -/
def writeStage (tag : Byte) (offset count : Nat) (words : List Word) (p : Part) : Part :=
  match p.tables.staging with
  | .pending _ _ => respond tag 3 .busy [] p
  | .free | .busy _ =>
    if count < 1 ∨ 5 < count ∨ 24 < offset + count then respond tag 3 .range [] p
    else
      respond tag 3 .ok []
        { p with tables := { p.tables with
          front := overwrite p.tables.front offset (padTo count words) } }

/-- A TRANSFER that has passed its gates (R176). -/
def stageTransfer (x : Transfer) (p : Part) : Part :=
  match p.tables.staging with
  | .free =>
    { p with tables := { p.tables with
      front := p.tables.back
      back := p.tables.front
      staging := .busy x } }
  | .busy back => { p with tables := { p.tables with staging := .pending back x } }
  | .pending _ _ => respond x.tag 4 .overrun [] p

/-- TRANSFER (R174, R176). -/
def transfer (tag : Byte) (table index : Word) (p : Part) : Part :=
  match stagedTable table with
  | none => respond tag 4 .range [] p
  | some t =>
    match transferGate t index.toNat p with
    | some r => respond tag 4 r [] p
    | none => stageTransfer { table := t, index := index.toNat, tag := tag } p

/-- The decision and the answer of a completion (R177). -/
def completeOne (x : Transfer) (p : Part) : Part :=
  match writeGate x.table x.index p with
  | some r => respond x.tag 4 r [] p
  | none =>
    respond x.tag 4 .ok []
      (commit x.table x.index (p.tables.back.take (entrySize x.table x.index)) p)

/-- The staging state after a completion (R177). -/
def advanceStaging (ts : TableStore) : TableStore :=
  match ts.staging with
  | .free => ts
  | .busy _ => { ts with staging := .free }
  | .pending _ next => { ts with front := ts.back, back := ts.front, staging := .busy next }

/-- The transfer outstanding in the back completes (R177). -/
def completeTransfer (p : Part) : Part :=
  match outstanding p.tables with
  | none => p
  | some x =>
    let q := completeOne x p
    { q with tables := advanceStaging q.tables }

/-- The table store samples DEPOT (R171). -/
def sampleDepot (p : Part) : Part :=
  { p with tables := { p.tables with depot := sampled p.tables.depot p.lines.depot } }

/-- The table store's work at a cycle start (R171, R177). -/
def tableStoreCycle (p : Part) : Part := completeTransfer (sampleDepot p)

/-! ### The envelope pointer (R178, R179) -/

/-- The pointer moved, with the values held. -/
def movePointer (k : Fin 16) (field : EnvelopeField) (held : List Word) (p : Part) : Part :=
  { p with tables := { p.tables with pointer := k, field := field, held := held } }

/-- ENVELOPE_POINTER (R178). -/
def envelopePointer (tag : Byte) (breakpoint : Word) (p : Part) : Part :=
  if h : breakpoint.toNat < 16 then respond tag 6 .ok [] (movePointer ⟨breakpoint.toNat, h⟩ .s [] p)
  else respond tag 6 .range [] p

/-- One value at the field the pointer names (R179). -/
def takeValue (v : Word) (p : Part) : Part :=
  let k := p.tables.pointer
  let held := p.tables.held
  match p.tables.field with
  | .s => movePointer k .t [v] p
  | .t => movePointer k .b [wordAt held 0, v] p
  | .b => movePointer (k + 1) .s [] (commit .envelope k.val [wordAt held 0, wordAt held 1, v] p)

/-- The values in order. -/
def takeValues (vs : List Word) (p : Part) : Part := vs.foldl (fun q v => takeValue v q) p

/-- ENVELOPE_DATA (R179): the lock and motion gates, then the count and the values. -/
def envelopeData (tag : Byte) (count : Nat) (values : List Word) (p : Part) : Part :=
  match writeGate .envelope 0 p with
  | some r => respond tag 7 r [] p
  | none =>
    let vs := padTo count values
    if count < 1 ∨ 5 < count ∨ vs.all (between 0 1000) = false then respond tag 7 .range [] p
    else respond tag 7 .ok [] (takeValues vs p)

/-! ### Locks (R173) -/

/-- A table's lock state replaced. -/
def withLock (t : TableId) (lock : LockState) (p : Part) : Part :=
  { p with tables := putTable p.tables t { tableAt p.tables t with lock := lock } }

/-- The cab state is ACTIVE or HOLD and the latest evaluation had v_eff above 0 or D other than 0. In HOLD
before its first evaluation the latest evaluation can have v_eff 0 and D 0: R173's test then takes the
UNLOCK, while its sentence "an UNLOCK is always refused there" would refuse it, and the model follows the
test (DESIGN CHOICE, notes/assumptions/35.md). -/
def inMotion (p : Part) : Bool :=
  cabLive p && (p.traction.demand.v != 0 || p.traction.demand.d != 0)

/-- LOCK (R173). -/
def lockTable (t : TableId) (p : Part) : Part × Result :=
  match (tableAt p.tables t).lock with
  | .unlocked | .locked => (withLock t .locked p, .ok)
  | .lockedDown => (p, .locked)

/-- UNLOCK (R173). -/
def unlockTable (t : TableId) (p : Part) : Part × Result :=
  match (tableAt p.tables t).lock with
  | .unlocked => (p, .ok)
  | .locked => if inMotion p then (p, .unsafeState) else (withLock t .unlocked p, .ok)
  | .lockedDown =>
    if !p.tables.depot.value then (p, .locked)
    else if inMotion p then (p, .unsafeState)
    else (withLock t .unlocked p, .ok)

/-- LOCK_DOWN (R173). -/
def lockDownTable (t : TableId) (p : Part) : Part × Result := (withLock t .lockedDown p, .ok)

/-- A lock command that R172 takes, on the table it names. -/
def lockCommand (act : TableId → Part → Part × Result) (tag code : Byte) (table : Word) (p : Part) :
    Part :=
  match tableOf table with
  | none => respond tag code .range [] p
  | some t => respond tag code (act t p).2 [] (act t p).1

/-! ### RESTART (R182) -/

/-- A table at a RESTART: its words and its reference sum are kept. -/
def restartedTable (x : Table) : Table :=
  { x with
    faulty := false
    lock := match x.lock with
      | .lockedDown => .lockedDown
      | .unlocked | .locked => .locked }

/-- The table store at a RESTART, less the validity mark and the LINE row. -/
def restartedTables (ts : TableStore) : TableStore :=
  { TableStore.reset with
    slot := restartedTable ts.slot
    param := restartedTable ts.param
    envelope := restartedTable ts.envelope
    cadence := restartedTable ts.cadence
    marker := restartedTable ts.marker
    route := restartedTable ts.route
    envelopeValid := ts.envelopeValid }

end Sys2Proof.Machine
end

