-- ==== Sys2Proof/Machine/ManagementUnit.lean ====
section
/-! DEFINITION. The management unit (chapter 10): acceptance, the commands, and the status pages. -/

namespace Sys2Proof.Machine

/-! ### Acceptance (R172, R183) -/

/-- The lock sequence returns to IDLE (R172). -/
def disarm (p : Part) : Part := { p with tables := { p.tables with armed := false } }

/-- A command is refused with SEQUENCE (R172). -/
def refuseSequence (tag code : Byte) (p : Part) : Part :=
  respond tag code .sequence [] (setFlag .sequence p)

/-- A command can be accepted: in line state SYNCHRONISED, with a tag from 1 to 255 (R183). -/
def canAccept (tag : Byte) (p : Part) : Bool := p.line.state == .synchronised && tag != 0

/-- A command other than LOCK, UNLOCK and LOCK_DOWN is accepted (R172, R183). -/
def accept (tag code : Byte) (take : Part → Part) (p : Part) : Part :=
  if canAccept tag p then
    if p.tables.armed then refuseSequence tag code (disarm p) else take p
  else p

/-- LOCK, UNLOCK or LOCK_DOWN is accepted (R172, R183). -/
def acceptLock (tag code : Byte) (take : Part → Part) (p : Part) : Part :=
  if canAccept tag p then
    if p.tables.armed then take (disarm p) else refuseSequence tag code p
  else p

/-! ### STATUS (R185, section 11.4) -/

/-- A sum of place values over the six tables. -/
def overTables (f : TableId → Nat) : Nat :=
  f .slot + f .param + f .envelope + f .cadence + f .marker + f .route

def laneBits (p : Part) : Nat := 2 * bit p.line.laneA.up + bit p.line.laneB.up

def statusPage0 (p : Part) : List Word :=
  [word (cabStatusWord p.cab + tableField p.cab.table),
   word (lineStateCode p.line.state * 256 + bit (lineLost p) * 16 + laneBits p),
   p.mgmt.flags.extractLsb' 0 16,
   p.mgmt.flags.extractLsb' 16 16 &&& 0x03FF,
   word (causeCode p.cab.fault.cause * 256 + stageCode p.cab.fault.stage * 16
     + tableField p.cab.fault.table)]

/-- The staging state's code: FREE 0, BUSY 1, PENDING 2. -/
def stagingCode : Staging → Nat
  | .free => 0 | .busy _ => 1 | .pending _ _ => 2

def statusPage1 (p : Part) : List Word :=
  let back := outstanding p.tables
  [word (permittedSpeed p),
   word (rowCode (capSource p) * 256 + openCount p * 16 + p.junction.queue.length),
   signedWord p.traction.demand.d,
   word (stagingCode p.tables.staging * 256 + tableField (back.map fun x => x.table)),
   word ((back.map fun x => x.index).getD 0)]

def statusPage2 (p : Part) : List Word :=
  [word (overTables fun t => lockCode (tableAt p.tables t).lock * 4 ^ tableCode t),
   word (overTables (fun t => bit (tableAt p.tables t).faulty * 2 ^ tableCode t)
     + bit p.tables.armed * 256 + bit p.tables.depot.value * 512 + bit p.tables.envelopeValid * 1024),
   word (p.tables.pointer.val * 256 + fieldCode p.tables.field * 16 + p.tables.held.length),
   0, 0]

def statusPage3 (p : Part) : List Word :=
  [word p.line.laneA.errors, word p.line.laneB.errors, word p.line.counter.toNat,
   word p.mgmt.queue.length, 0]

/-- The page a page number names (R185). -/
def statusPage (page : Nat) (p : Part) : Option (List Word) :=
  match page with
  | 0 => some (statusPage0 p)
  | 1 => some (statusPage1 p)
  | 2 => some (statusPage2 p)
  | 3 => some (statusPage3 p)
  | _ => none

/-- STATUS (R185). -/
def statusCommand (tag : Byte) (page : Word) (p : Part) : Part :=
  match statusPage page.toNat p with
  | some data => respond tag 1 .ok data p
  | none => respond tag 1 .range [] p

/-- CLEAR_STATUS (R186). Where four responses wait, its own OK is discarded: the flags are cleared first and
RESPONSE_LOST is then set for it, an order that R184 and R186 leave open (DESIGN CHOICE,
notes/assumptions/36.md). -/
def clearStatusCommand (tag : Byte) (p : Part) : Part := respond tag 2 .ok [] (clearFlags p)

/-! ### Reading tables and records (R187, R188) -/

/-- READ_ENTRY (R187). -/
def readEntryCommand (tag : Byte) (table index offset : Word) (p : Part) : Part :=
  match tableOf table with
  | none => respond tag 5 .range [] p
  | some t =>
    if index.toNat < entryCount t ∧ offset.toNat < entrySize t index.toNat then
      respond tag 5 .ok (((entryWords p.tables t index.toNat).drop offset.toNat).take 5) p
    else respond tag 5 .range [] p

/-- Data word 0 of READ_RECORD (section 11.4). -/
def recordFlagsWord (r : SlotRecord) : Word :=
  word (bit r.new + bit r.lost * 2 + bit r.lenMismatch * 4 + bit r.laneDisagree * 8
    + bit r.collision * 16 + outcomeCode r.outcomeA * 256 + outcomeCode r.outcomeB * 1024)

/-- Lane of origin: none 0, A 1, B 2 (section 11.4). -/
def originCode : Option Lane → Nat
  | none => 0 | some .A => 1 | some .B => 2

/-- Data words 1 to 4 of READ_RECORD's page (R188). -/
def recordPage (page : Nat) (r : SlotRecord) : Option (List Word) :=
  match page with
  | 0 => some (padTo 4 r.payload)
  | 1 => some (padTo 4 (r.payload.drop 4))
  | 2 => some [word r.length, word (originCode r.origin), word r.cycle.toNat, word r.age]
  | _ => none

/-- READ_RECORD (R188). -/
def readRecordCommand (tag : Byte) (index page : Word) (p : Part) : Part :=
  if h : index.toNat < 82 then
    let i : Fin 82 := ⟨index.toNat, h⟩
    let r := recordAt p i
    match recordPage page.toNat r with
    | some data =>
      respond tag 13 .ok (recordFlagsWord r :: data)
        (putRecord i { r with new := false, lost := false } p)
    | none => respond tag 13 .range [] p
  else respond tag 13 .range [] p

/-! ### Commands of other blocks -/

/-- LOCK_SETUP in IDLE (R172). -/
def lockSetupCommand (tag : Byte) (p : Part) : Part :=
  respond tag 8 .ok [] { p with tables := { p.tables with armed := true } }

/-- SET_RESTRICTION (R74); SET is action 1, WITHDRAW 2 (section 11.4). -/
def setRestrictionCommand (tag : Byte) (action value : Word) (p : Part) : Part :=
  if action = 1 ∧ value.toNat ≤ 1000 then respond tag 12 .ok [] (setRow .restrict value.toNat p)
  else if action = 2 then respond tag 12 .ok [] (withdrawRow .restrict p)
  else respond tag 12 .range [] p

/-- STABLE (R63). -/
def stableCommand (tag : Byte) (p : Part) : Part :=
  if p.cab.state = .inactive then
    if (outstanding p.tables).isSome then respond tag 14 .busy [] p
    else respond tag 14 .ok [] (enterStabled p)
  else respond tag 14 .unsafeState [] p

/-- WAKE (R65). -/
def wakeCommand (tag : Byte) (p : Part) : Part :=
  if p.cab.state = .stabled then
    respond tag 15 .ok [] (leaveStabledIfDue { p with cab := { p.cab with pending := .wake } })
  else respond tag 15 .ok [] p

/-- A code that names no command (R183). -/
def unknownCommand (tag code : Byte) (p : Part) : Part := respond tag code .unknown [] p

/-! ### RESTART (R189) -/

/-- The line interface at a RESTART (R20). -/
def restartedLine (li : LineInterface) : LineInterface :=
  { li with laneA := { li.laneA with errors := 0 }, laneB := { li.laneB with errors := 0 } }

/-- The slot engine at a RESTART (R43). -/
def restartedSlots (se : SlotEngine) : SlotEngine :=
  { se with records := Vector.replicate 82 SlotRecord.cleared, mark := none }

/-- Every block at a RESTART (R189). The discrete lines, the node number and the cells already sent
stand. -/
def restart (p : Part) : Part :=
  markEnvelope { p with
    line := restartedLine p.line
    slots := restartedSlots p.slots
    cab := CabAuthority.reset (endOf p.lines.aft)
    caps := CapTable.reset (lineCap p)
    traction := Traction.reset
    junction := JunctionUnit.reset
    stop := StopUnit.reset
    sound := Sound.reset
    tables := restartedTables p.tables
    mgmt := { flags := 0, queue := [] } }

/-- RESTART (R189), with the levels of the discrete lines at it: END is read from its strap (R67). -/
def restartCommand (tag : Byte) (lines : Lines) (p : Part) : Part :=
  match p.cab.state with
  | .inactive | .stabled => respond tag 16 .ok [] (restart (withLines lines p))
  | .activating | .active | .hold => respond tag 16 .unsafeState [] p

/-! ### A store into a record of function MGMT_IN (R183) -/

/-- The command a code names is accepted, with the argument words of section 11.4. -/
def acceptCommand (tag code : Byte) (ws : List Word) (p : Part) : Part :=
  let a := wordAt ws 2
  let b := wordAt ws 3
  let c := wordAt ws 4
  let rest := ws.drop 3
  match code.toNat with
  | 1 => accept tag code (statusCommand tag a) p
  | 2 => accept tag code (clearStatusCommand tag) p
  | 3 => accept tag code (writeStage tag (highByte a).toNat (lowByte a).toNat rest) p
  | 4 => accept tag code (transfer tag a b) p
  | 5 => accept tag code (readEntryCommand tag a b c) p
  | 6 => accept tag code (envelopePointer tag a) p
  | 7 => accept tag code (envelopeData tag a.toNat rest) p
  | 8 => accept tag code (lockSetupCommand tag) p
  | 9 => acceptLock tag code (lockCommand lockTable tag code a) p
  | 10 => acceptLock tag code (lockCommand unlockTable tag code a) p
  | 11 => acceptLock tag code (lockCommand lockDownTable tag code a) p
  | 12 => accept tag code (setRestrictionCommand tag a b) p
  | 13 => accept tag code (readRecordCommand tag a b) p
  | 14 => accept tag code (stableCommand tag) p
  | 15 => accept tag code (wakeCommand tag) p
  | 16 => accept tag code (restartCommand tag p.lines) p
  | _ => accept tag code (unknownCommand tag code) p

/-- A store of a cell of a kind into a record of function MGMT_IN (R183). -/
def mgmtStore (kind : Kind) (r : SlotRecord) (p : Part) : Part :=
  let w0 := wordAt r.payload 0
  let w1 := wordAt r.payload 1
  if kind = .mgmt ∧ 2 ≤ r.length ∧ w0.extractLsb' 10 6 = p.node then
    acceptCommand (lowByte w1) (lowByte w0) r.payload p
  else p

end Sys2Proof.Machine
end

