-- ==== Sys2Proof/Machine/SlotEngine.lean ====
section
/-! DEFINITION. The slot engine (chapter 2): the governing entry, the disposition of an arriving cell,
stores and their delivery, and the part's own cells. -/

namespace Sys2Proof.Machine

/-! ### The governing entry (R22, R23) -/

/-- The bootstrap in entry (R23). -/
def bootstrapIn : SlotEntry where
  enable := true
  slot := 62
  base := 0
  rep := 1
  select := .firstValid
  disposition := .take
  fn := .mgmtIn
  single := false
  len := 8

/-- The bootstrap out entry of the part with a node number (R23). -/
def bootstrapOut (node : Six) : SlotEntry where
  enable := true
  slot := 63
  base := node.toNat
  rep := 64
  select := .none
  disposition := .own
  fn := .mgmtOut
  single := true
  len := 8

/-- An entry matches an opening: enabled, of the slot, and its cycle filter matches (R22). -/
def matchesOpening (slot cycle : Six) (e : SlotEntry) : Bool :=
  e.enable && e.slot == slot && filterMatches e cycle

/-- The first entry of those given, the first of index `i`, that matches, with its index (R22). -/
def firstMatch (slot cycle : Six) : List SlotEntry → Nat → Option (Nat × SlotEntry)
  | [], _ => none
  | e :: es, i => if matchesOpening slot cycle e then some (i, e) else firstMatch slot cycle es (i + 1)

/-- The table entry that governs an opening (R22). -/
def tableGoverning (slot : Six) (p : Part) : Option Governing :=
  match firstMatch slot p.line.counter (slotEntries p.tables.slot.words) 0 with
  | some (i, e) => if h : i < 80 then some { index := ⟨i, by omega⟩, entry := e } else none
  | none => none

/-- The governing entry of an opening: a bootstrap entry that applies and matches goes ahead of the
table's (R22, R23). -/
def governingAt (slot : Six) (p : Part) : Option Governing :=
  if hasFn p .mgmtIn = false ∧ matchesOpening slot p.line.counter bootstrapIn = true then
    some { index := 80, entry := bootstrapIn }
  else if hasFn p .mgmtOut = false
      ∧ matchesOpening slot p.line.counter (bootstrapOut p.node) = true then
    some { index := 81, entry := bootstrapOut p.node }
  else tableGoverning slot p

/-! ### The disposition that applies (R29, R30, R39) -/

/-- A TAKE or REWRITE of another function than its own behaves as OBSERVE (R29, R30). -/
def fittedDisposition (e : SlotEntry) : Disposition :=
  match e.disposition with
  | .take => if e.fn = .mgmtIn then .take else .observe
  | .rewrite => if e.fn = .stopButton then .rewrite else .observe
  | d => d

/-- The degradation of STABLED (R39). -/
def stabledDisposition (fn : Fn) : Disposition → Disposition
  | .observe => if fn = .mgmtIn ∨ fn = .otherCab then .observe else .pass
  | .rewrite => .pass
  | d => d

/-- The degradation of INACTIVE (R39). -/
def inactiveDisposition : Disposition → Disposition
  | .rewrite => .observe
  | d => d

/-- The disposition that applies to an entry in a cab state (R39). -/
def appliedDisposition (state : CabState) (e : SlotEntry) : Disposition :=
  match state with
  | .inactive => inactiveDisposition (fittedDisposition e)
  | .stabled => stabledDisposition e.fn (fittedDisposition e)
  | .activating | .active | .hold => fittedDisposition e

/-! ### Stores (R32) and their delivery (R24) -/

/-- A record after a store of a cell into it, at cycle `cycle` (R32). -/
def storedRecord (len : Nat) (lane : Lane) (cycle : Six) (stamp : Nat) (c : Cell) (r : SlotRecord) :
    SlotRecord :=
  { r with
    payload := padTo 8 (c.payload.take len)
    length := c.length
    origin := some lane
    cycle := cycle
    age := 0
    new := true
    lost := r.lost || r.new
    lenMismatch := c.length != len
    stamp := stamp }

/-- A store is given to the block that owns the function (R24). -/
def deliver (index : Fin 82) (fn : Fn) (kind : Kind) (r : SlotRecord) (p : Part) : Part :=
  match fn with
  | .handle => brakeTestStore r (handleRange r p)
  | .speed => speedStore r p
  | .marker => markerStore r p
  | .routeSelect => routeSelectStore index r p
  | .pointStatus => pointStore r p
  | .stopButton => buttonStore r p
  | .doorStatus => doorStore index r p
  | .otherCab => deriveView p
  | .mgmtIn => mgmtStore kind r p
  | .emergency | .generic => p
  | .demandOut | .pointRequestOut | .cabStatusOut | .signOut | .doorOut | .chimeOut | .mgmtOut => p

/-- A store of a valid cell that came on a lane (R32). -/
def storeCell (g : Governing) (lane : Lane) (c : Cell) (p : Part) : Part :=
  let stamp := p.slots.stores + 1
  let r := storedRecord g.entry.len lane p.line.counter stamp c (recordAt p g.index)
  let q := putRecord g.index r p
  deliver g.index g.entry.fn c.kind r { q with slots := { q.slots with stores := stamp } }

/-- A second valid copy that differs from the first (R28). -/
def disagree (g : Governing) (p : Part) : Part :=
  setFlag .laneDisagree (putRecord g.index { recordAt p g.index with laneDisagree := true } p)

/-- A valid cell under lane select FIRST_VALID (R28). The two copies are compared by their received words,
each whole, as R28 says: copies that differ only in payload bits that no layout assigns disagree, though R191
has the part ignore those bits (DESIGN CHOICE, notes/assumptions/41.md). The mark found empty after a RESTART
that the first copy carried makes the second copy a first one (R43), so that a RESTART sent on both lanes is
accepted twice, where R183 has it accepted once (DESIGN CHOICE, notes/assumptions/42.md). -/
def pairCell (g : Governing) (lane : Lane) (c : Cell) (p : Part) : Part :=
  let copy : PairingMark := { kind := c.kind, length := c.length, payload := c.payload }
  match p.slots.mark with
  | none =>
    let q := { p with slots := { p.slots with mark := some copy } }
    if c.kind = .null then q else storeCell g lane c q
  | some first => if first = copy then p else disagree g p

/-- A valid cell stored or compared as lane select and pairing decide (R27, R28). -/
def observeCell (g : Governing) (lane : Lane) (c : Cell) (p : Part) : Part :=
  match g.entry.select with
  | .none => p
  | .firstValid => pairCell g lane c p
  | .A => if lane = .A ∧ c.kind ≠ .null then storeCell g lane c p else p
  | .B => if lane = .B ∧ c.kind ≠ .null then storeCell g lane c p else p

/-! ### Outcomes (R34) -/

/-- A lane's outcome in a record. -/
def withOutcome (lane : Lane) (o : LaneOutcome) (r : SlotRecord) : SlotRecord :=
  match lane with
  | .A => { r with outcomeA := o }
  | .B => { r with outcomeB := o }

/-- A lane's outcome set in the governing entry's record. -/
def setOutcome (g : Governing) (lane : Lane) (o : LaneOutcome) (p : Part) : Part :=
  putRecord g.index (withOutcome lane o (recordAt p g.index)) p

/-- A lane on which no cell was handed over in the opening is SILENT at its close. -/
def silentUnlessHanded (g : Governing) (lane : Lane) (p : Part) : Part :=
  if (laneOf p.line lane).handed then p else setOutcome g lane .silent p

/-- The close of the open slot (R10, R34). -/
def closeSlot (p : Part) : Part :=
  let q :=
    match p.slots.governing with
    | some g => silentUnlessHanded g .B (silentUnlessHanded g .A p)
    | none => p
  { q with
    line := { q.line with slotOpen := none }
    slots := { q.slots with governing := none } }

/-! ### The outgoing cell (R25, R29, R30) -/

/-- The NULL cell put in place of another in the open slot (R25). -/
def nullCell (p : Part) : List Word :=
  makeCell (p.line.slotOpen.getD 0) p.line.counter .null p.node []

/-- The cell is addressed to the part (R29). -/
def addressed (c : Cell) (p : Part) : Bool :=
  c.kind == .mgmt && decide (1 ≤ c.length) && (wordAt c.payload 0).extractLsb' 10 6 == p.node

/-- The zone that a STOP_BUTTON cell names. -/
def zoneOf (c : Cell) : Fin 8 := ⟨bitsOf (wordAt c.payload 0) 0 3, Nat.mod_lt _ (by decide)⟩

/-- A rewritten copy: word 2 of the payload is the acknowledge value, every other field is kept, every
unassigned bit is 0 (R191, R192), and the check is made again. A cell whose length does not reach word
2 is unchanged (R30). -/
def rewritten (ack : Nat) (words : List Word) : List Word :=
  match words with
  | h0 :: h1 :: w0 :: w1 :: _ :: _ :: ws =>
    let body := (h0 &&& 0xFFFC) :: (h1 &&& 0xFC0F) :: (w0 &&& 7) :: w1 :: word ack
      :: List.replicate ws.length 0
    body ++ [crc body]
  | _ => words

/-- The slot engine at a cell handed over with its verdict (R25 to R31): the part after it, and the
outgoing cell of the lane. -/
def disposeCell (g : Governing) (lane : Lane) (words : List Word) (c : Cell) (valid : Bool) (p : Part) :
    Part × Option (List Word) :=
  let d := appliedDisposition p.cab.state g.entry
  let q := setOutcome g lane (if d = .own then .collision else if valid then .valid else .invalid) p
  match d with
  | .pass => (q, some words)
  | .observe => (if valid then observeCell g lane c q else q, some words)
  | .take =>
    if valid then
      if addressed c p then (observeCell g lane c q, some (nullCell p)) else (q, some words)
    else (q, some (nullCell p))
  | .rewrite =>
    if valid then
      let q' := observeCell g lane c q
      (q', some (rewritten (acknowledge q' (zoneOf c)) words))
    else (q, some (nullCell p))
  | .own => (putRecord g.index { recordAt q g.index with collision := true } q, none)

/-- A cell handed over in the opening in progress; with no governing entry it is repeated unchanged and
leaves no trace (R22, R26). -/
def handOver (lane : Lane) (words : List Word) (c : Cell) (valid : Bool) (p : Part) :
    Part × Option (List Word) :=
  match p.slots.governing with
  | some g => disposeCell g lane words c valid p
  | none => (p, some words)

/-! ### The part's own cells (R36 to R38) -/

/-- The functions whose OWN slots carry NULL cells in INACTIVE and STABLED (R39). -/
def silencedFn : Fn → Bool
  | .demandOut | .pointRequestOut | .signOut | .doorOut | .chimeOut => true
  | _ => false

/-- The part sends a NULL cell in the OWN slot of a function because of the cab state (R39). -/
def isSilenced (fn : Fn) (p : Part) : Bool := silencedFn fn && !cabActs p

def signWords (p : Part) : List Word := [word (bit p.stop.request * 256 + assistanceBitmap p)]

def doorWords (p : Part) : List Word := [word p.stop.doorOpen.toNat]

def chimeWords (p : Part) : List Word := [word (chimeRole p * 256 + chimeTone p % 16)]

/-- A response as the payload of a management cell (section 11.4). -/
def responseWords (r : Response) : List Word :=
  word (r.node.toNat * 1024 + r.code.toNat) :: word r.tag.toNat :: word (resultCode r.result) :: r.data

/-- The oldest response, removed from the queue (R184). -/
def takeResponse (p : Part) : Part × Option (List Word) :=
  match p.mgmt.queue with
  | r :: rs => ({ p with mgmt := { p.mgmt with queue := rs } }, some (responseWords r))
  | [] => (p, none)

/-- The record's last sent takes a content. -/
def markSent (g : Governing) (content : List Word) (p : Part) : Part :=
  putRecord g.index { recordAt p g.index with lastSent := some content } p

/-- A standing content, cut or filled to E words: with SINGLE it is emitted where it is not what was
last sent (R36, R37). An expected length of 9 to 15, which R21 puts out of range and only damaged storage
can hold, is taken as it stands: the content then has E words (DESIGN CHOICE, notes/assumptions/38.md). -/
def standing (g : Governing) (content : List Word) (p : Part) : Part × Option (List Word) :=
  let content := padTo g.entry.len content
  if g.entry.single = true ∧ (recordAt p g.index).lastSent = some content then (p, none)
  else (markSent g content p, some content)

/-- An item given, cut or filled to E words as a standing content is (notes/assumptions/38.md), or nothing
(R38). -/
def itemSent (g : Governing) (x : Part × Option (List Word)) : Part × Option (List Word) :=
  match x.2 with
  | some item =>
    let content := padTo g.entry.len item
    (markSent g content x.1, some content)
  | none => x

/-- What an OWN entry emits at an opening with a lane UP: its content, or nothing, for which a NULL cell
goes out (R36 to R40). -/
def emission (g : Governing) (p : Part) : Part × Option (List Word) :=
  if isSilenced g.entry.fn p then (p, none)
  else
    match g.entry.fn with
    | .demandOut => standing g (demandWords p) p
    | .cabStatusOut => standing g (cabStatusWords p) p
    | .signOut => standing g (signWords p) p
    | .doorOut => standing g (doorWords p) p
    | .chimeOut => standing g (chimeWords p) p
    | .pointRequestOut => itemSent g (nextItem p)
    | .mgmtOut => itemSent g (takeResponse p)
    | .generic | .handle | .speed | .marker | .routeSelect | .pointStatus | .stopButton | .doorStatus
    | .emergency | .otherCab | .mgmtIn => (p, none)

/-- The own cell of an opening of a slot: MGMT for MGMT_OUT, DATA otherwise, NULL for no content (R36). -/
def ownCell (slot : Six) (fn : Fn) (content : Option (List Word)) (p : Part) : List Word :=
  match content with
  | some ws => makeCell slot p.line.counter (if fn = .mgmtOut then .mgmt else .data) p.node ws
  | none => makeCell slot p.line.counter .null p.node []

/-- A cell on a lane that is UP (R36). -/
def driveIfUp (lane : Lane) (cell : List Word) (p : Part) : Part :=
  if (laneOf p.line lane).up then drive lane cell p else p

/-- The emission at an opening (R36): nothing with no lane UP. -/
def emitOwned (slot : Six) (g : Governing) (p : Part) : Part :=
  if lineLost p then p
  else
    let x := emission g p
    let cell := ownCell slot g.entry.fn x.2 x.1
    driveIfUp .B cell (driveIfUp .A cell x.1)

/-- The opening of a slot (R10, R22, R36). Slot 0 is governed by no entry. -/
def openSlot (slot : Six) (p : Part) : Part :=
  let g := if slot = 0 then none else governingAt slot p
  let q : Part := { p with
    line := { p.line with
      slotOpen := some slot
      laneA := { p.line.laneA with handed := false }
      laneB := { p.line.laneB with handed := false } }
    slots := { p.slots with mark := none, governing := g } }
  match g with
  | some x => if x.entry.disposition = .own then emitOwned slot x q else q
  | none => q

end Sys2Proof.Machine
end

