-- ==== Sys2Proof/Machine/LineInterface.lean ====
section
/-! DEFINITION. The line interface (chapter 1): lane health, cycle starts and the work they present to
the blocks, slot openings, and the judging of an arriving cell. -/

namespace Sys2Proof.Machine

/-! ### Lane health (R17, R18) -/

/-- A lane's runs from its credit for the ending cycle, and the credit cleared (R3, R7, R17). -/
def countRuns (x : LaneState) : LaneState :=
  if x.credit then { x with misses := 0, beacons := min 2 (x.beacons + 1), credit := false }
  else { x with beacons := 0, misses := min 8 (x.misses + 1) }

/-- An UP lane whose run of misses has reached 8 (R17). -/
def goesDown (x : LaneState) : Bool := x.up && decide (8 ≤ x.misses)

/-- A DOWN lane whose run of beacons has reached 2 (R17). -/
def comesUp (x : LaneState) : Bool := !x.up && decide (2 ≤ x.beacons)

/-- A lane's state from its runs, where going down (`down`) and coming up (`up`) are decided. -/
def settleLane (down up : Bool) (x : LaneState) : LaneState :=
  { x with up := if down && goesDown x then false else if up && comesUp x then true else x.up }

/-- What is presented to the cab authority when the lanes change (R18). -/
def lossChange (before after : Part) : Option LossChange :=
  if lineLost after then (if lineLost before then none else some .lost)
  else if lineLost before then some .ended else none

/-- A lane went DOWN. -/
def wentDown (before after : LaneState) : Bool := before.up && !after.up

/-- LANE_DEGRADED is due: a lane went DOWN and the other is UP (R18). -/
def degradedBy (before after : LineInterface) : Bool :=
  (wentDown before.laneA after.laneA && after.laneB.up)
    || (wentDown before.laneB after.laneB && after.laneA.up)

/-- The lane states decided together from their runs, with LANE_DEGRADED and LINE_LOST (R17, R18). -/
def settleLanes (down up : Bool) (p : Part) : Part :=
  let q : Part := { p with line := { p.line with
    laneA := settleLane down up p.line.laneA
    laneB := settleLane down up p.line.laneB } }
  setFlagIf (lossChange p q == some .lost) .lineLost
    (setFlagIf (degradedBy p.line q.line) .laneDegraded q)

/-! ### Ages (R33) -/

/-- The age of every record one up, saturating at 255. -/
def ageRecords (p : Part) : Part :=
  { p with slots := { p.slots with
    records := mapVec (fun r => { r with age := min 255 (r.age + 1) }) p.slots.records } }

/-- What a cycle start does before any block's own work: the records age (R33), and the sound steps in
progress are counted from now on (R153). -/
def ageAll (p : Part) : Part := ageSteps (ageRecords p)

/-! ### The work of a cycle start (R9) -/

/-- What a cycle start finds when it begins: the change of the line-lost condition it presents, whether
the part is ACTIVATING, and whether the supervision mode is SUSPENDED. -/
structure CycleStart where
  loss       : Option LossChange
  activating : Bool
  suspended  : Bool
  deriving DecidableEq, Repr

/-- A teardown from HOLD SLOW has been taken at this cycle start: the supervision mode was SUSPENDED when
it began and is NORMAL now, and the cab state is not ACTIVE, to which a return from HOLD leads (R85). -/
def tornDownFromSlow (cs : CycleStart) (p : Part) : Bool :=
  cs.suspended && !p.traction.suspended && p.cab.state != .active

/-- Steps 1 and 2 of R79. After a teardown from HOLD SLOW the speed input is updated again from the next
cycle start (R85). -/
def tractionInputs (cs : CycleStart) (p : Part) : Part :=
  let q := sampleLowAdh p
  if tornDownFromSlow cs q then q else speedInput q

/-- The traction unit's work (R79), on the part as the works before it have left it. -/
def tractionCycle (cs : CycleStart) (p : Part) : Part :=
  let q := tractionInputs cs p
  if cabActs q then presentEvaluation (evaluate q) else q

/-- One piece of work. The activation stage counts only where the activation was in progress when the
cycle start began (DEDUCED, notes/assumptions/15.md). -/
def doWork (cs : CycleStart) (w : Work) (p : Part) : Part :=
  match w with
  | .lineLoss => presentLoss cs.loss p
  | .cabDesk => deskCycle p
  | .cabView => deriveView p
  | .cabStage => if cs.activating ∧ p.cab.state = .activating then stageCycle p else p
  | .cabScrub => scrubCycle p
  | .traction => tractionCycle cs p
  | .junction => junctionCycle p
  | .stop => testDoors p
  | .sound => soundCycle p
  | .tableStore => tableStoreCycle p

/-- Every piece of work, in the order taken where nothing says otherwise (R9; notes/assumptions/4.md). In it
the check of a table comes before the completion of a transfer at the same cycle start; R52 allows either
order, and a sentence of R51 the other alone (DESIGN CHOICE, notes/assumptions/39.md). -/
def allWorks : List Work :=
  [.lineLoss, .cabDesk, .cabView, .cabStage, .cabScrub, .traction, .junction, .stop, .sound,
   .tableStore]

/-- A list with every later repetition of a member left out. -/
def firsts : List Work → List Work
  | [] => []
  | w :: ws => w :: (firsts ws).filter (fun x => x != w)

/-- The order in which the works are taken: the order given, then the works it does not name. -/
def schedule (order : List Work) : List Work := firsts (order ++ allWorks)

/-- The cycle start is presented to every block: the ages of the records and of the sound steps first,
then the works in their order (R9, R33, R153). -/
def presentCycle (loss : Option LossChange) (order : List Work) (p : Part) : Part :=
  let cs : CycleStart := {
    loss := loss
    activating := p.cab.state == .activating
    suspended := p.traction.suspended }
  (schedule order).foldl (fun q w => doWork cs w q) (ageAll p)

/-! ### Cycle starts (R3, R7) -/

/-- Steps 1 and 2 of R3 and of R7: the open slot closes, and the credits are handed to the lane-health
count and cleared. -/
def endCycle (p : Part) : Part :=
  let q := closeSlot p
  settleLanes true true { q with line := { q.line with
    laneA := countRuns q.line.laneA
    laneB := countRuns q.line.laneB } }

/-- The counter is not the expected number: CYCLE_SLIP (R3, step 3). -/
def slips (cycle : Six) (p : Part) : Bool :=
  p.line.state != .unsynchronised && cycle != p.line.counter + 1

/-- Steps 3 to 7 of R3, after the cycle has ended. -/
def takeBeacon (lane : Lane) (cycle : Six) (p : Part) : Part :=
  let li := { p.line with counter := cycle, state := .synchronised, timerArmed := true }
  openSlot 0
    { p with line := withLane li lane { laneOf p.line lane with credit := true } }

/-- A beacon-driven cycle start (R3). -/
def beaconStart (lane : Lane) (cycle : Six) (order : List Work) (p : Part) : Part :=
  let q := endCycle p
  presentCycle (lossChange p q) order (takeBeacon lane cycle (setFlagIf (slips cycle p) .cycleSlip q))

/-- A substitute cycle start (R7). -/
def substituteStart (order : List Work) (p : Part) : Part :=
  let q := endCycle p
  presentCycle (lossChange p q) order
    { q with line := { q.line with
      counter := q.line.counter + 1
      state := .freeRunning
      timerArmed := true } }

/-! ### Arrivals (R1, R4, R5, R13 to R15) -/

/-- A copy of this cycle's beacon: the credit of its lane is set (R4). -/
def creditLane (lane : Lane) (p : Part) : Part :=
  { p with line := withLane p.line lane { laneOf p.line lane with credit := true } }

/-- A valid beacon in line state SYNCHRONISED (R4, R15). -/
def classifyBeacon (lane : Lane) (cycle : Six) (order : List Work) (p : Part) : Part :=
  if (laneOf p.line lane).credit then
    if cycle = p.line.counter then countError lane p else beaconStart lane cycle order p
  else if cycle = p.line.counter then creditLane lane p
  else if p.line.slotOpen = some 0 then setFlag .laneDisagree (creditLane lane p)
  else beaconStart lane cycle order p

/-- A valid beacon (R3, R4). -/
def beaconArrival (lane : Lane) (cycle : Six) (order : List Work) (p : Part) : Part :=
  if p.line.state = .synchronised then classifyBeacon lane cycle order p
  else beaconStart lane cycle order p

/-- The schedule tests in an open slot from 1 to 63 (R14). -/
def passesSchedule (slot : Six) (lane : Lane) (c : Cell) (p : Part) : Bool :=
  c.kind != .beacon && c.slot == slot && c.cycle == p.line.counter && !(laneOf p.line lane).handed

/-- A cell has been taken on a lane in the open slot. -/
def markHanded (lane : Lane) (p : Part) : Part :=
  { p with line := withLane p.line lane { laneOf p.line lane with handed := true } }

/-- The outgoing cell, if there is one, on the lane's output. -/
def driveOut (lane : Lane) (x : Part × Option (List Word)) : Part :=
  match x.2 with
  | some cell => drive lane cell x.1
  | none => x.1

/-- A cell that is no valid beacon, in the open slot 1 to 63: judged, counted where it is invalid, and
handed to the slot engine (R1, R14). -/
def slotArrival (slot : Six) (lane : Lane) (words : List Word) (c : Cell) (intact : Bool) (p : Part) :
    Part :=
  let valid := intact && passesSchedule slot lane c p
  let q := if valid then p else countError lane p
  driveOut lane (handOver lane words c valid (markHanded lane q))

/-- The slot against which an arriving cell is judged: none outside line state SYNCHRONISED (R1). -/
def judgingSlot (p : Part) : Option Six :=
  if p.line.state = .synchronised then p.line.slotOpen else none

/-- A cell that is no valid beacon (R1, R5, R13 to R15). A BEACON of slot 0 that fails the integrity tests
while one of slots 1 to 63 is open is handed to the slot engine as any other invalid cell: R1 hands over
every cell that is no valid beacon, while R5 says that such a beacon is repeated unchanged, and the model
follows R1 (DESIGN CHOICE, notes/assumptions/34.md). -/
def cellArrivalIn (lane : Lane) (words : List Word) (c : Cell) (intact : Bool) (p : Part) : Part :=
  match judgingSlot p with
  | some slot =>
    if slot = 0 then drive lane words (countError lane p) else slotArrival slot lane words c intact p
  | none => drive lane words (if intact && c.kind != .beacon then p else countError lane p)

/-- A cell arrives on a lane input (R1). Words too few for a header and a check fail the integrity
tests as any cell broken off does (R13). -/
def arrive (lane : Lane) (words : List Word) (order : List Work) (p : Part) : Part :=
  match parseCell words with
  | some c =>
    let intact := passesIntegrity words c
    if intact = true ∧ c.kind = .beacon ∧ c.slot = 0 then
      drive lane words (beaconArrival lane c.cycle order p)
    else cellArrivalIn lane words c intact p
  | none => cellArrivalIn lane words default false p

/-! ### The local cycle timer (R6) -/

/-- The local cycle timer can expire: it is armed, and after a beacon-driven cycle start slot 63 has
opened (R6, R10). -/
def timerCanExpire (p : Part) : Bool :=
  p.line.timerArmed && (p.line.state != .synchronised || p.line.slotOpen == some 63)

/-! ### Slot openings (R10) -/

/-- The slot that the slot timer opens next: in line state SYNCHRONISED, after slots 0 to 62. -/
def nextSlot (p : Part) : Option Six :=
  if p.line.state = .synchronised then
    match p.line.slotOpen with
    | some n => if n = 63 then none else some (n + 1)
    | none => none
  else none

/-- The slot timer closes the open slot and opens the next (R10). -/
def slotTimer (p : Part) : Part :=
  match nextSlot p with
  | some n => openSlot n (closeSlot p)
  | none => p

end Sys2Proof.Machine
end

