-- ==== Sys2Proof/Machine/LineCommands.lean ====
section
/-! DEFINITION. The meanings of the commands of the line and of the reset line: POWER_ON_RESET,
CELL_ARRIVAL, SUBSTITUTE_CYCLE_START, SLOT_OPENING, LANE_DOWN and LANE_UP. -/

namespace Sys2Proof.Machine

/-- The node number of a NODE strap: 62 where it reads 0 or 63 (R23, R193). -/
def nodeNumber (strap : Six) : Six := if strap = 0 ∨ strap = 63 then 62 else strap

/-- The part right after power-on reset, with the straps as the lines read them: NODE (R193) and END
(R45); every block as its chapter gives. -/
def resetPart (lines : Lines) : Part :=
  { State.reset.part with
    node := nodeNumber lines.node
    lines := lines
    cab := CabAuthority.reset (endOf lines.aft) }

/-- The part while RESET_N is low: in its state after power-on reset, with every output off, and NODE not
yet sampled (R193). -/
def heldPart (lines : Lines) (p : Part) : Part := { resetPart lines with resetN := false, node := p.node }

/-- POWER_ON_RESET (R193): with RESET_N low the part is held in reset; at its end, with RESET_N high, it
samples NODE and runs. -/
def execPowerOnReset (lines : ResetLines) (s : State) : Host.Outcome State Fault Refusal :=
  .next (s.onPart fun p => if lines.resetN then resetPart lines.toLines else heldPart lines.toLines p)

/-- CELL_ARRIVAL (R1); while RESET_N is low the lane outputs repeat nothing (R193). -/
def execCellArrival (lane : Lane) (words : List Word) (lines : Lines) (order : List Work) (s : State) :
    Host.Outcome State Fault Refusal :=
  .next (s.onPart fun p => if p.resetN then arrive lane words order (withLines lines p) else p)

/-- SUBSTITUTE_CYCLE_START (R7); it does not occur while the local cycle timer is disarmed, nor after a
beacon-driven cycle start before slot 63 has opened, so that a beacon taken first puts it off (R6, R8). -/
def execSubstituteCycleStart (lines : Lines) (order : List Work) (s : State) :
    Host.Outcome State Fault Refusal :=
  .next (s.onPart fun p =>
    if timerCanExpire p then substituteStart order (withLines lines p) else p)

/-- SLOT_OPENING (R10). -/
def execSlotOpening (s : State) : Host.Outcome State Fault Refusal := .next (s.onPart slotTimer)

/-- The lane states decided from the runs, and the loss of the line or its end presented (R17, R18). -/
def decideLanes (down up : Bool) (p : Part) : Part :=
  presentLoss (lossChange p (settleLanes down up p)) (settleLanes down up p)

/-- LANE_DOWN (R17): the UP lanes whose run of misses has reached 8. -/
def execLaneDown (s : State) : Host.Outcome State Fault Refusal :=
  .next (s.onPart (decideLanes true false))

/-- LANE_UP (R17): the DOWN lanes whose run of beacons has reached 2. -/
def execLaneUp (s : State) : Host.Outcome State Fault Refusal :=
  .next (s.onPart (decideLanes false true))

end Sys2Proof.Machine
end

