-- ==== Sys2Proof/Machine/ManagementCommands.lean ====
section
/-! DEFINITION. The meanings of the management commands: the acceptance of each (R183), with its tag and
its argument words. -/

namespace Sys2Proof.Machine

/-- STATUS (R185). -/
def execStatus (tag : Byte) (page : Word) (s : State) : Host.Outcome State Fault Refusal :=
  .next (s.onPart (accept tag 1 (statusCommand tag page)))

/-- CLEAR_STATUS (R186). -/
def execClearStatus (tag : Byte) (s : State) : Host.Outcome State Fault Refusal :=
  .next (s.onPart (accept tag 2 (clearStatusCommand tag)))

/-- WRITE_STAGE (R176). -/
def execWriteStage (tag : Byte) (offset count : Byte) (words : List Word) (s : State) :
    Host.Outcome State Fault Refusal :=
  .next (s.onPart (accept tag 3 (writeStage tag offset.toNat count.toNat words)))

/-- TRANSFER (R174, R176). -/
def execTransfer (tag : Byte) (table index : Word) (s : State) : Host.Outcome State Fault Refusal :=
  .next (s.onPart (accept tag 4 (transfer tag table index)))

/-- READ_ENTRY (R187). -/
def execReadEntry (tag : Byte) (table index offset : Word) (s : State) :
    Host.Outcome State Fault Refusal :=
  .next (s.onPart (accept tag 5 (readEntryCommand tag table index offset)))

/-- ENVELOPE_POINTER (R178). -/
def execEnvelopePointer (tag : Byte) (breakpoint : Word) (s : State) :
    Host.Outcome State Fault Refusal :=
  .next (s.onPart (accept tag 6 (envelopePointer tag breakpoint)))

/-- ENVELOPE_DATA (R179). -/
def execEnvelopeData (tag : Byte) (count : Word) (values : List Word) (s : State) :
    Host.Outcome State Fault Refusal :=
  .next (s.onPart (accept tag 7 (envelopeData tag count.toNat values)))

/-- LOCK_SETUP (R172). -/
def execLockSetup (tag : Byte) (s : State) : Host.Outcome State Fault Refusal :=
  .next (s.onPart (accept tag 8 (lockSetupCommand tag)))

/-- LOCK (R172, R173). -/
def execLock (tag : Byte) (table : Word) (s : State) : Host.Outcome State Fault Refusal :=
  .next (s.onPart (acceptLock tag 9 (lockCommand lockTable tag 9 table)))

/-- UNLOCK (R172, R173). -/
def execUnlock (tag : Byte) (table : Word) (s : State) : Host.Outcome State Fault Refusal :=
  .next (s.onPart (acceptLock tag 10 (lockCommand unlockTable tag 10 table)))

/-- LOCK_DOWN (R172, R173). -/
def execLockDown (tag : Byte) (table : Word) (s : State) : Host.Outcome State Fault Refusal :=
  .next (s.onPart (acceptLock tag 11 (lockCommand lockDownTable tag 11 table)))

/-- SET_RESTRICTION (R74). -/
def execSetRestriction (tag : Byte) (action value : Word) (s : State) :
    Host.Outcome State Fault Refusal :=
  .next (s.onPart (accept tag 12 (setRestrictionCommand tag action value)))

/-- READ_RECORD (R188). -/
def execReadRecord (tag : Byte) (index page : Word) (s : State) : Host.Outcome State Fault Refusal :=
  .next (s.onPart (accept tag 13 (readRecordCommand tag index page)))

/-- STABLE (R63). -/
def execStable (tag : Byte) (s : State) : Host.Outcome State Fault Refusal :=
  .next (s.onPart (accept tag 14 (stableCommand tag)))

/-- WAKE (R65). -/
def execWake (tag : Byte) (s : State) : Host.Outcome State Fault Refusal :=
  .next (s.onPart (accept tag 15 (wakeCommand tag)))

/-- RESTART (R189): END is read from the strap at the RESTART (R67). -/
def execRestart (tag : Byte) (lines : Lines) (s : State) : Host.Outcome State Fault Refusal :=
  .next (s.onPart (accept tag 16 (restartCommand tag lines)))

/-- A command whose code names no command (R183). -/
def execUnknownCommand (tag code : Byte) (s : State) : Host.Outcome State Fault Refusal :=
  .next (s.onPart (accept tag code (unknownCommand tag code)))

end Sys2Proof.Machine
end

