-- ==== Sys2Proof/Machine/UnitEvents.lean ====
section
/-! DEFINITION. The meanings of the events inside the blocks: a timer that runs out, a count that reaches
its limit, a record that goes stale. Each is the block's own operation where its condition holds, and
changes nothing where it does not; a cycle start takes the same operation where its own count makes the
condition hold. -/

namespace Sys2Proof.Machine

/-- `f` where a condition holds. -/
def when (c : Part → Bool) (f : Part → Part) (s : State) : Host.Outcome State Fault Refusal :=
  .next (s.onPart fun p => if c p then f p else p)

/-! ### Cab authority -/

/-- OTHER_CAB_TIMEOUT (R46). -/
def execOtherCabTimeout (s : State) : Host.Outcome State Fault Refusal :=
  when otherCabIsSilent (takeView .inactive) s

/-- ACTIVATION_ATTEMPT (R49). -/
def execActivationAttempt (s : State) : Host.Outcome State Fault Refusal := when attemptIsDue attempt s

/-- SETTLE_COMPLETE (R50). -/
def execSettleComplete (s : State) : Host.Outcome State Fault Refusal := when settleIsOver settleEnds s

/-- BRAKE_TIMEOUT (R53). -/
def execBrakeTimeout (s : State) : Host.Outcome State Fault Refusal :=
  when brakeTestIsOver brakeTestFails s

/-- ENTRY_TO_ACTIVE (R54). -/
def execEntryToActive (s : State) : Host.Outcome State Fault Refusal :=
  when speedLockStageIsOver enterActive s

/-- PENDING_EXIT_TAKEN (R59). -/
def execPendingExitTaken (s : State) : Host.Outcome State Fault Refusal := when exitIsDue takeExit s

/-- SCRUB_PASS_BEGIN (R64). -/
def execScrubPassBegin (s : State) : Host.Outcome State Fault Refusal := when scrubIsDue beginScrub s

/-- STABLED_EXIT (R65). -/
def execStabledExit (s : State) : Host.Outcome State Fault Refusal :=
  when stabledExitIsDue leaveStabled s

/-! ### Traction unit -/

/-- SPEED_SOURCE_STALE (R83). -/
def execSpeedSourceStale (s : State) : Host.Outcome State Fault Refusal :=
  when speedLockIsLost speedGoesStale s

/-- SPEED_LOCK_ACQUIRED (R83). -/
def execSpeedLockAcquired (s : State) : Host.Outcome State Fault Refusal :=
  when speedLockIsDue speedLocks s

/-! ### Junction unit -/

/-- SELECTION_TIMEOUT (R109). -/
def execSelectionTimeout (s : State) : Host.Outcome State Fault Refusal :=
  when selectionIsStale (select 0) s

/-- REQUEST_TIMEOUT of the record at a list position (R119). -/
def execRequestTimeout (pos : Fin 4) (s : State) : Host.Outcome State Fault Refusal :=
  when (fun p => requestIsDue p pos) (timeOut pos) s

/-! ### Stop unit -/

/-- DOOR_STATUS_STALE (R133). -/
def execDoorStatusStale (s : State) : Host.Outcome State Fault Refusal :=
  when doorIsStale (setRow .doors 0) s

/-! ### Sound unit -/

/-- The phase of the source PLAYING on a channel is over. -/
def channelPhaseIsOver (ch : Channel) (p : Part) : Bool :=
  (playing p.sound ch).any fun x => phaseIsOver (getSource p.sound x)

/-- The step of the source PLAYING on a channel is over. -/
def channelStepIsOver (ch : Channel) (p : Part) : Bool :=
  (playing p.sound ch).any fun x => stepIsOver (getSource p.sound x)

/-- The phase of the source PLAYING on a channel ends (R153). -/
def endChannelPhase (ch : Channel) (p : Part) : Part :=
  match playing p.sound ch with
  | some x => withSound (endPhase x p.sound) p
  | none => p

/-- The step of the source PLAYING on a channel ends (R154). -/
def endChannelStep (ch : Channel) (p : Part) : Part :=
  match playing p.sound ch with
  | some x => withSound (endStep p.tables.cadence.words x p.sound) p
  | none => p

/-- PHASE_END on a channel (R153). -/
def execPhaseEnd (ch : Channel) (s : State) : Host.Outcome State Fault Refusal :=
  when (channelPhaseIsOver ch) (endChannelPhase ch) s

/-- STEP_END on a channel (R154). -/
def execStepEnd (ch : Channel) (s : State) : Host.Outcome State Fault Refusal :=
  when (channelStepIsOver ch) (endChannelStep ch) s

/-- HORN_MIN_REACHED (R163). -/
def execHornMinReached (s : State) : Host.Outcome State Fault Refusal := when hornIsDone endHorn s

/-- HORN_STUCK (R163). -/
def execHornStuck (s : State) : Host.Outcome State Fault Refusal := when hornIsStuck cutHorn s

/-! ### Table store -/

/-- TRANSFER_COMPLETION (R177). -/
def execTransferCompletion (s : State) : Host.Outcome State Fault Refusal :=
  when (fun p => (outstanding p.tables).isSome) completeTransfer s

end Sys2Proof.Machine
end

