-- ==== Sys2Proof/Machine/Dispatch.lean ====
section
/-! DEFINITION. One arm per command: the meaning of each row of spec/opcode_table.json. -/

namespace Sys2Proof.Machine

def exec (i : Instr) (s : State) : Host.Outcome State Fault Refusal :=
  match i with
  | .powerOnReset lines => Sys2Proof.Machine.execPowerOnReset lines s
  | .cellArrival lane words lines order => Sys2Proof.Machine.execCellArrival lane words lines order s
  | .substituteCycleStart lines order => Sys2Proof.Machine.execSubstituteCycleStart lines order s
  | .slotOpening => Sys2Proof.Machine.execSlotOpening s
  | .laneDown => Sys2Proof.Machine.execLaneDown s
  | .laneUp => Sys2Proof.Machine.execLaneUp s
  | .otherCabTimeout => Sys2Proof.Machine.execOtherCabTimeout s
  | .activationAttempt => Sys2Proof.Machine.execActivationAttempt s
  | .settleComplete => Sys2Proof.Machine.execSettleComplete s
  | .brakeTimeout => Sys2Proof.Machine.execBrakeTimeout s
  | .entryToActive => Sys2Proof.Machine.execEntryToActive s
  | .pendingExitTaken => Sys2Proof.Machine.execPendingExitTaken s
  | .scrubPassBegin => Sys2Proof.Machine.execScrubPassBegin s
  | .stabledExit => Sys2Proof.Machine.execStabledExit s
  | .speedSourceStale => Sys2Proof.Machine.execSpeedSourceStale s
  | .speedLockAcquired => Sys2Proof.Machine.execSpeedLockAcquired s
  | .selectionTimeout => Sys2Proof.Machine.execSelectionTimeout s
  | .requestTimeout pos => Sys2Proof.Machine.execRequestTimeout pos s
  | .doorStatusStale => Sys2Proof.Machine.execDoorStatusStale s
  | .phaseEnd ch => Sys2Proof.Machine.execPhaseEnd ch s
  | .stepEnd ch => Sys2Proof.Machine.execStepEnd ch s
  | .hornMinReached => Sys2Proof.Machine.execHornMinReached s
  | .hornStuck => Sys2Proof.Machine.execHornStuck s
  | .transferCompletion => Sys2Proof.Machine.execTransferCompletion s
  | .status tag page => Sys2Proof.Machine.execStatus tag page s
  | .clearStatus tag => Sys2Proof.Machine.execClearStatus tag s
  | .writeStage tag offset count words => Sys2Proof.Machine.execWriteStage tag offset count words s
  | .transfer tag table index => Sys2Proof.Machine.execTransfer tag table index s
  | .readEntry tag table index offset => Sys2Proof.Machine.execReadEntry tag table index offset s
  | .envelopePointer tag breakpoint => Sys2Proof.Machine.execEnvelopePointer tag breakpoint s
  | .envelopeData tag count values => Sys2Proof.Machine.execEnvelopeData tag count values s
  | .lockSetup tag => Sys2Proof.Machine.execLockSetup tag s
  | .lock tag table => Sys2Proof.Machine.execLock tag table s
  | .unlock tag table => Sys2Proof.Machine.execUnlock tag table s
  | .lockDown tag table => Sys2Proof.Machine.execLockDown tag table s
  | .setRestriction tag action value => Sys2Proof.Machine.execSetRestriction tag action value s
  | .readRecord tag index page => Sys2Proof.Machine.execReadRecord tag index page s
  | .stable tag => Sys2Proof.Machine.execStable tag s
  | .wake tag => Sys2Proof.Machine.execWake tag s
  | .restart tag lines => Sys2Proof.Machine.execRestart tag lines s
  | .unknownCommand tag code => Sys2Proof.Machine.execUnknownCommand tag code s

end Sys2Proof.Machine
end

