-- ==== Sys2Proof/Safety.lean ====
section
/-! DEFINITION. The terms in which statements are made: which command codes and tags commands carry, when
a command can be accepted, what a cell is to the line interface, and the invariants of the blocks. -/

namespace Sys2Proof.Machine

/-! ### Commands of the management node -/

/-- The tag and the code of a management command (section 11.4), none for the other commands. -/
def managementHeader : Instr → Option (Byte × Byte)
  | .status tag _ => some (tag, 1)
  | .clearStatus tag => some (tag, 2)
  | .writeStage tag _ _ _ => some (tag, 3)
  | .transfer tag _ _ => some (tag, 4)
  | .readEntry tag _ _ _ => some (tag, 5)
  | .envelopePointer tag _ => some (tag, 6)
  | .envelopeData tag _ _ => some (tag, 7)
  | .lockSetup tag => some (tag, 8)
  | .lock tag _ => some (tag, 9)
  | .unlock tag _ => some (tag, 10)
  | .lockDown tag _ => some (tag, 11)
  | .setRestriction tag _ _ => some (tag, 12)
  | .readRecord tag _ _ => some (tag, 13)
  | .stable tag => some (tag, 14)
  | .wake tag => some (tag, 15)
  | .restart tag _ => some (tag, 16)
  | .unknownCommand tag code => some (tag, code)
  | .powerOnReset _ | .cellArrival _ _ _ _ | .substituteCycleStart _ _ | .slotOpening | .laneDown
  | .laneUp | .otherCabTimeout | .activationAttempt | .settleComplete | .brakeTimeout
  | .entryToActive | .pendingExitTaken | .scrubPassBegin | .stabledExit | .speedSourceStale
  | .speedLockAcquired | .selectionTimeout | .requestTimeout _ | .doorStatusStale | .phaseEnd _
  | .stepEnd _ | .hornMinReached | .hornStuck | .transferCompletion => none

/-- LOCK, UNLOCK and LOCK_DOWN: the commands that a LOCK_SETUP lets through (R172). -/
def needsSetup : Instr → Bool
  | .lock _ _ | .unlock _ _ | .lockDown _ _ => true
  | _ => false

/-- A command with this tag is accepted and not refused by the lock sequence: the line is SYNCHRONISED,
the tag is from 1 to 255, and the sequence is IDLE (R172, R183). -/
def Takes (tag : Byte) (p : Part) : Prop :=
  p.line.state = .synchronised ∧ tag ≠ 0 ∧ p.tables.armed = false

/-- A lock command with this tag is accepted and taken: the sequence is ARMED (R172, R183). -/
def TakesLock (tag : Byte) (p : Part) : Prop :=
  p.line.state = .synchronised ∧ tag ≠ 0 ∧ p.tables.armed = true

/-- The command that the payload words of a management cell spell (section 11.4); a RESTART takes the levels
of the discrete lines given. -/
def commandOf (lines : Lines) (ws : List Word) : Instr :=
  let code := lowByte (wordAt ws 0)
  let tag := lowByte (wordAt ws 1)
  let a := wordAt ws 2
  let b := wordAt ws 3
  match code.toNat with
  | 1 => .status tag a
  | 2 => .clearStatus tag
  | 3 => .writeStage tag (highByte a) (lowByte a) (ws.drop 3)
  | 4 => .transfer tag a b
  | 5 => .readEntry tag a b (wordAt ws 4)
  | 6 => .envelopePointer tag a
  | 7 => .envelopeData tag a (ws.drop 3)
  | 8 => .lockSetup tag
  | 9 => .lock tag a
  | 10 => .unlock tag a
  | 11 => .lockDown tag a
  | 12 => .setRestriction tag a b
  | 13 => .readRecord tag a b
  | 14 => .stable tag
  | 15 => .wake tag
  | 16 => .restart tag lines
  | _ => .unknownCommand tag code

/-! ### Arriving cells -/

/-- The cycle number of a valid beacon: it passes the integrity tests, is of kind BEACON and carries slot
0 (R3, R5, R13). -/
def beaconCycle (words : List Word) : Option Six :=
  match parseCell words with
  | some c =>
    if passesIntegrity words c = true ∧ c.kind = .beacon ∧ c.slot = 0 then some c.cycle else none
  | none => none

/-- The words are an intact cell of these fields (R13). -/
def Intact (words : List Word) (c : Cell) : Prop :=
  parseCell words = some c ∧ passesIntegrity words c = true

/-- A beacon with this cycle field begins a new cycle (R3, R4). -/
def BeginsCycle (lane : Lane) (cycle : Six) (p : Part) : Prop :=
  p.line.state ≠ .synchronised ∨
    (cycle ≠ p.line.counter ∧ ((laneOf p.line lane).credit = true ∨ p.line.slotOpen ≠ some 0))

/-- The cells driven on a lane's output, newest first. -/
def sentOn (p : Part) : Lane → List (List Word)
  | .A => p.sentA
  | .B => p.sentB

/-- Slot 1 to 63 is open with a governing entry, and an intact cell of this slot and cycle is the first on
the lane: it is valid (R14). -/
def ArrivesValid (lane : Lane) (words : List Word) (c : Cell) (g : Governing) (p : Part) : Prop :=
  p.line.state = .synchronised ∧ Intact words c ∧ c.kind ≠ .beacon ∧ c.slot ≠ 0
    ∧ p.line.slotOpen = some c.slot ∧ c.cycle = p.line.counter
    ∧ (laneOf p.line lane).handed = false ∧ p.slots.governing = some g

/-- The words are a valid cell on a lane in the open slot (R14). -/
def IsValid (lane : Lane) (words : List Word) (p : Part) : Prop :=
  ∃ c, Intact words c ∧ c.kind ≠ .beacon ∧ p.line.slotOpen = some c.slot ∧ c.cycle = p.line.counter
    ∧ (laneOf p.line lane).handed = false

/-- A valid cell is addressed to the part (R29). -/
def IsAddressed (c : Cell) (p : Part) : Prop :=
  c.kind = .mgmt ∧ 1 ≤ c.length ∧ (wordAt c.payload 0).extractLsb' 10 6 = p.node

/-- A valid cell, not NULL, is stored (R27 to R30): the disposition that applies stores it, and the lane
select takes this copy, which under FIRST_VALID is the first. -/
def IsStored (lane : Lane) (c : Cell) (g : Governing) (p : Part) : Prop :=
  (appliedDisposition p.cab.state g.entry = .observe
      ∨ appliedDisposition p.cab.state g.entry = .rewrite
      ∨ (appliedDisposition p.cab.state g.entry = .take ∧ IsAddressed c p))
    ∧ ((g.entry.select = .firstValid ∧ p.slots.mark = none) ∨ (g.entry.select = .A ∧ lane = .A)
      ∨ (g.entry.select = .B ∧ lane = .B))

/-- A lane's outcome in a record (R34). -/
def outcomeOn (r : SlotRecord) : Lane → LaneOutcome
  | .A => r.outcomeA
  | .B => r.outcomeB

/-- An open slot has taken a cell on a lane, which has the error count given (R14, R16). -/
def tookCell (lane : Lane) (lines : Lines) (errors : Nat) (p : Part) : Part :=
  { p with
    lines := lines
    line := withLane p.line lane { (laneOf p.line lane) with handed := true, errors := errors } }

/-! ### Cycle starts -/

/-- A cycle start has been presented to the blocks (R9): every record has aged by one, up to 255 (R33), the
sound steps in progress are counted from here on (R153), and then every piece of work has been taken, each
once, those that the command names in the order in which it names them, and the others after them. The
presentation of the line's loss or of its end, if there is one, is `loss`; the activation stage counts only
where the part was ACTIVATING at the beginning, and a supervision mode that was SUSPENDED at the beginning
tells a teardown from HOLD SLOW (R85). -/
def CyclePresented (loss : Option LossChange) (order : List Work) (before after : Part) : Prop :=
  ∃ (aged : Part) (works : List Work),
    aged = { before with
        slots := { before.slots with records := aged.slots.records }
        sound := { before.sound with
          driverBell := { before.sound.driverBell with begun := false }
          depart := { before.sound.depart with begun := false }
          alarm := { before.sound.alarm with begun := false }
          assist := { before.sound.assist with begun := false }
          stop := { before.sound.stop with begun := false } } }
    ∧ (∀ i, recordAt aged i =
        { (recordAt before i) with age := min 255 ((recordAt before i).age + 1) })
    ∧ works.Nodup ∧ (∀ w, w ∈ works)
    ∧ (∀ v w, order.idxOf v < order.idxOf w → works.idxOf v < works.idxOf w)
    ∧ after = works.foldl
        (fun p w => doWork {
          loss := loss
          activating := before.cab.state == .activating
          suspended := before.traction.suspended } w p) aged

/-! ### The envelope and the sound channels -/

/-- The envelope is valid by R91. Of the n breakpoints in use, at least 1, the split k, 16 or at most n,
begins region L where it is below 16 and below n (R90); within a region the speeds are strictly ascending. -/
def EnvelopeInOrder (p : Part) : Prop :=
  let n := param p 20
  let k := param p 21
  let used := (breakpoints p.tables.envelope.words).take n
  1 ≤ n ∧ (k = 16 ∨ k ≤ n)
    ∧ ∀ i a b, used[i]? = some a → used[i + 1]? = some b → ¬ (k < 16 ∧ k < n ∧ i + 1 = k) → a.s < b.s

/-- Between two states of the sound unit the five sources alone differ. -/
def SourcesAloneDiffer (before after : Sound) : Prop :=
  after = { before with
    driverBell := after.driverBell
    depart := after.depart
    alarm := after.alarm
    assist := after.assist
    stop := after.stop }

/-- A source plays the step at its offset, which has just begun (R149, R153). -/
def BeganStep (cadence : List Word) (before after : SoundSource) : Prop :=
  ∀ on off : Nat, cadenceStep cadence (before.pattern.first + before.offset) = (on, off) →
    after = { before with
      state := .playing
      phaseOn := decide (0 < on)
      phaseCount := if 0 < on then on else if 0 < off then off else 1
      offCount := off
      begun := true }

/-- A ready source whose latched pattern has no step: it completes where it would begin (R157). -/
def CompletesAtOnce (snd : Sound) (x : Source) : Prop :=
  isReady snd x = true ∧ (getSource snd x).pattern.steps = 0

/-- A ready source whose latched pattern has a step to play (R155). -/
def CanPlay (snd : Sound) (x : Source) : Prop :=
  isReady snd x = true ∧ (getSource snd x).pattern.steps ≠ 0

/-! ### Changes of cab state -/

/-- An activation has ended (R56, R102, R165): the cab is INACTIVE with the fault record given, the flags
given are set, D_prev is -1000, the emergency latch is clear, the SPEED_LOCK and DEPARTURE rows are absent,
and every sound source is IDLE with the outputs off. -/
def ActivationEnded (flags : List Flag) (fault : FaultRecord) (before after : Part) : Prop :=
  after.cab = { before.cab with
      state := .inactive
      stage := .none
      table := none
      count := 0
      pending := .none
      fault := fault }
    ∧ (∀ f, hasFlag after.mgmt.flags f = (hasFlag before.mgmt.flags f || decide (f ∈ flags)))
    ∧ after.mgmt.queue = before.mgmt.queue
    ∧ after.traction = { before.traction with dPrev := -1000, latch := false }
    ∧ after.caps = { before.caps with speedLock := none, departure := none }
    ∧ (∀ x, (getSource after.sound x).state = .idle) ∧ after.sound.horn = .off
    ∧ bellOut after = false ∧ hornOut after = false ∧ alarmLamp after = false
    ∧ after.junction = before.junction ∧ after.stop = before.stop ∧ after.tables = before.tables
    ∧ after.slots = before.slots ∧ after.sentA = before.sentA ∧ after.sentB = before.sentB

/-- A teardown has been made (R62, R102, R129, R145, R165). -/
def TornDown (before after : Part) : Prop :=
  after.cab = { before.cab with
      state := .inactive
      pending := .none
      stage := .none
      table := none
      count := 0 }
    ∧ (∀ r, getRow after.caps r =
        if r = .cab then some 0
        else if r = .line ∨ r = .doors ∨ r = .restrict then getRow before.caps r else none)
    ∧ (∀ pos, openAt after pos = none) ∧ after.junction.queue = [] ∧ after.junction.arbiter = 0
    ∧ after.junction.lastMarker = before.junction.lastMarker
    ∧ after.junction.selection = before.junction.selection
    ∧ (hasFlag after.mgmt.flags .releaseDropped = true ↔
        hasFlag before.mgmt.flags .releaseDropped = true ∨ before.junction.queue ≠ []
          ∨ ∃ pos r, openAt before pos = some r ∧ r.setSent = true)
    ∧ after.stop = { before.stop with
        phase := .running
        request := false
        push := 0
        doorOpen := 0
        assistance := Vector.replicate 8 .clear }
    ∧ stopLamp after = false
    ∧ (∀ x, (getSource after.sound x).state = .idle) ∧ after.sound.horn = .off
    ∧ bellOut after = false ∧ hornOut after = false ∧ alarmLamp after = false ∧ chimeRole after = 0
    ∧ after.traction = { before.traction with
        episode := false
        envelopeAlarm := false
        dPrev := -1000
        latch := false
        suspended := false }
    ∧ after.line = before.line ∧ after.slots = before.slots ∧ after.tables = before.tables
    ∧ after.mgmt.queue = before.mgmt.queue

/-- A change to a table reaches an activation in which the table has passed its check (R52): it has been
checked in TABLE_CHECK, or the stage is a later one. -/
def HasBeenChecked (t : TableId) (p : Part) : Prop :=
  p.cab.stage = .brakeTest ∨ p.cab.stage = .speedLock
    ∨ (p.cab.stage = .tableCheck ∧ ∃ u, p.cab.table = some u ∧ tableCode t < tableCode u)

/-- The open records have taken a route selection that has changed (R108, R115): the effective route is the
selection, or the default route where it is 0. A record not committed, of another route, restarts its
request where the effective route is defined; a committed one keeps its route with ROUTE_LOCKED. -/
def SelectionTaken (selection : BitVec 4) (before after : Part) : Prop :=
  after.junction.selection = selection ∧ after.junction.queue = before.junction.queue
    ∧ after.junction.arbiter = before.junction.arbiter
    ∧ (∀ pos : Fin 4, openAt before pos = none →
        openAt after pos = none ∧ after.caps.junctions[pos] = before.caps.junctions[pos])
    ∧ (∀ (pos : Fin 4) (r : JunctionRecord), openAt before pos = some r →
        let e := routeEntry before r.junction
        let route := if selection = 0 then e.dflt else selection
        let restarts := route ≠ r.route ∧ countsDistance r = false ∧ (e.route? route).isSome = true
        (restarts →
          openAt after pos = some { r with
              route := route
              state := .requested
              count := 0
              confirmed := 0 }
            ∧ after.caps.junctions[pos] = some e.unconfirmed)
        ∧ (¬ restarts →
          openAt after pos = some r ∧ after.caps.junctions[pos] = before.caps.junctions[pos])
        ∧ (route ≠ r.route → countsDistance r = true →
          hasFlag after.mgmt.flags .routeLocked = true))
    ∧ ((∀ pos r, openAt before pos = some r → countsDistance r = false) →
        after.mgmt.flags = before.mgmt.flags)
    ∧ after.line = before.line ∧ after.slots = before.slots ∧ after.cab = before.cab
    ∧ after.traction = before.traction ∧ after.stop = before.stop ∧ after.tables = before.tables
    ∧ after.mgmt.queue = before.mgmt.queue

/-! ### Invariants -/

/-- The line interface: the runs and the error counts of a lane are in their ranges, and one of the runs
is 0 (R16, R17). -/
def LaneOk (x : LaneState) : Prop :=
  x.beacons ≤ 2 ∧ x.misses ≤ 8 ∧ x.errors ≤ 65535 ∧ (x.beacons = 0 ∨ x.misses = 0)

/-- The line interface: a slot is open exactly in SYNCHRONISED, the local cycle timer is armed exactly
outside UNSYNCHRONISED, and an entry governs only while a slot is open (R2, R6, R10, R22). -/
def LineOk (p : Part) : Prop :=
  LaneOk p.line.laneA ∧ LaneOk p.line.laneB
    ∧ (p.line.slotOpen.isSome = true ↔ p.line.state = .synchronised)
    ∧ (p.line.timerArmed = true ↔ p.line.state ≠ .unsynchronised)
    ∧ (p.slots.governing.isSome = true → p.line.slotOpen.isSome = true)

/-- The slot records: eight payload words, an age up to 255 (section 2.4); the response queue and the
release queue hold up to 4 (R124, R184). -/
def StoresOk (p : Part) : Prop :=
  (∀ i : Fin 82, (recordAt p i).payload.length = 8 ∧ (recordAt p i).age ≤ 255)
    ∧ p.mgmt.queue.length ≤ 4 ∧ p.junction.queue.length ≤ 4

/-- The cab authority: which pending exits and stages a cab state has, and the CAB row, present at 0 but
in ACTIVE with no pending exit (R48, section 3.1). -/
def CabOk (p : Part) : Prop :=
  (p.cab.stage = .none ↔ p.cab.state ≠ .activating)
    ∧ (p.cab.table.isSome = true ↔ p.cab.stage = .tableCheck)
    ∧ (match p.cab.state with
       | .active => p.cab.pending = .none ∨ p.cab.pending = .hold ∨ p.cab.pending = .off
       | .stabled => p.cab.pending = .none ∨ p.cab.pending = .wake ∨ p.cab.pending = .drive
       | .inactive | .activating | .hold => p.cab.pending = .none)
    ∧ p.caps.cab = (if p.cab.state = .active ∧ p.cab.pending = .none then none else some 0)

/-- A transfer that waits names an entry of a staged table, and its image is in range (R174, R175). -/
def WaitsOk (x : Transfer) (image : List Word) : Prop :=
  x.table ≠ .envelope ∧ x.index < entryCount x.table
    ∧ imageInRange x.table x.index (image.take (entrySize x.table x.index)) = true

/-- The table store: every table has its words (R168) and a sum equal to its reference sum (R170); the
parameters, the breakpoints, the held values and the waiting images are in range (R169, R175); the LINE
row holds line_cap (R73); the validity mark shows the envelope valid exactly where it is (R91). -/
def TablesOk (p : Part) : Prop :=
  (∀ t : TableId, (tableAt p.tables t).words.length = tableSize t
      ∧ sumMatches (tableAt p.tables t) = true)
    ∧ paramInRange p.tables.param.words = true
    ∧ p.tables.envelope.words.all (between 0 1000) = true
    ∧ p.tables.held.all (between 0 1000) = true
    ∧ p.tables.front.length = 24 ∧ p.tables.back.length = 24
    ∧ p.caps.line = lineCap p
    ∧ (p.tables.envelopeValid = true ↔ EnvelopeInOrder p)
    ∧ (match p.tables.staging with
       | .free => True
       | .busy back => WaitsOk back p.tables.back
       | .pending back front => WaitsOk back p.tables.back ∧ WaitsOk front p.tables.front)

/-- The demands of the traction unit lie from -1000 to +1000 (R100). -/
def DemandOk (p : Part) : Prop :=
  -1000 ≤ p.traction.dPrev ∧ p.traction.dPrev ≤ 1000
    ∧ -1000 ≤ p.traction.demand.d ∧ p.traction.demand.d ≤ 1000

/-- The junction unit: a JUNCTION row is present exactly while the record at its position is open, at 0
while the record is in FAULT; no two open records have one junction (R111, R112); outside ACTIVE and HOLD
nothing is open, queued or overflowed (R128). -/
def JunctionOk (p : Part) : Prop :=
  (∀ pos : Fin 4, (p.caps.junctions[pos]).isSome = (openAt p pos).isSome)
    ∧ (∀ pos : Fin 4, (openAt p pos).any inFault = true → p.caps.junctions[pos] = some 0)
    ∧ (∀ pos pos' : Fin 4, pos ≠ pos' → ∀ r r', openAt p pos = some r → openAt p pos' = some r' →
        r.junction ≠ r'.junction)
    ∧ (cabLive p = false → openCount p = 0 ∧ p.junction.queue = [] ∧ p.caps.overflow = none)

/-- The alarm conditions that the sound unit holds are those of the blocks that present them, and the
forced episode and the envelope alarm are in ACTIVE alone (R91, R96, R112, R164). -/
def LampOk (p : Part) : Prop :=
  p.sound.junctionFault = anyFault p.junction.list
    ∧ p.sound.overflow = p.caps.overflow.isSome
    ∧ p.sound.forced = p.traction.episode
    ∧ p.sound.envelope = p.traction.envelopeAlarm
    ∧ (p.cab.state ≠ .active → p.traction.episode = false ∧ p.traction.envelopeAlarm = false)

/-- The channels: a PLAYING source is the only one of its channel, a SUSPENDED source has a PLAYING source
of higher priority (R155), and what plays or is suspended has steps (R157). -/
def ChannelsOk (snd : Sound) : Prop :=
  (∀ x y : Source, channelOf x = channelOf y → isPlaying snd x = true → isPlaying snd y = true → x = y)
    ∧ (∀ x : Source, (getSource snd x).state = .suspended →
        (higherThan x).any (isPlaying snd) = true)
    ∧ (∀ x : Source, (getSource snd x).state = .playing ∨ (getSource snd x).state = .suspended →
        (getSource snd x).pattern.steps ≠ 0)

/-- The sound unit: its channels, the DEPARTURE row at 0 exactly while DEPART is not IDLE (R159), and
silence in INACTIVE and STABLED (R165). -/
def SoundOk (p : Part) : Prop :=
  ChannelsOk p.sound
    ∧ p.caps.departure = (if p.sound.depart.state = .idle then none else some 0)
    ∧ (cabActs p = false → (∀ x : Source, (getSource p.sound x).state = .idle) ∧ p.sound.horn = .off)

end Sys2Proof.Machine
end

