-- ==== Sys2Proof/Certificates/Slice0/Obligations.lean ====
section
/-! DEFINITION. The statements for the provers. `Takes`, `TakesLock`, `BeginsCycle`, `ArrivesValid` and
the invariants are those of Sys2Proof/Safety.lean. -/

open Sys2Proof Sys2Proof.Machine

/-! ### The machine -/

/-- The command at the front of the queue is taken whole, on the state with the queue's rest. With no
command waiting a step changes nothing, which is the model's choice (notes/assumptions/2.md). -/
def Obligations.StepTakesTheFrontCommand : Prop :=
  (∀ (c : Instr) (s : State), step { s with pending := c :: s.pending } = exec c s)
    ∧ (∀ s : State, s.pending = [] → step s = .next s)

/-- Every command completes, in every state, and leaves the queue of waiting commands alone: that the manual
names no stop is an inference (notes/assumptions/31.md), and the queue is the model's choice
(notes/assumptions/1.md). The node number and the level of RESET_N are changed by power-on reset alone
(R193). -/
def Obligations.EveryCommandCompletes : Prop :=
  ∀ (c : Instr) (s : State), ∃ p : Part, exec c s = .next { part := p, pending := s.pending }
    ∧ ((∀ lines, c ≠ .powerOnReset lines) →
        p.node = s.part.node ∧ p.resetN = s.part.resetN)

/-! ### Power-on reset (R19, R42, R66, R76, R103, R130, R147, R166, R181, R190, R193) -/

/-- Power-on reset: the node number, the line interface, the slot engine, the cab authority, the cap
table and the traction unit (R19, R42, R66, R76, R103, R193). NODE is sampled at the end of the reset, with
RESET_N high, and while RESET_N is low the lane outputs repeat nothing (R193). That the command carries the
level of RESET_N, and that the part stands in this state and no other command changes anything while the
level is low, is the model's choice (notes/assumptions/28.md). -/
def Obligations.PowerOnResetLineCabAndTraction : Prop :=
  ∀ (lines : ResetLines) (s : State), ∃ p : Part,
    exec (.powerOnReset lines) s = .next { part := p, pending := s.pending }
      ∧ p.resetN = lines.resetN
      ∧ (lines.resetN = true →
          p.node = (if lines.node = 0 ∨ lines.node = 63 then 62 else lines.node))
      ∧ (lines.resetN = false → ∀ (c : Instr) (queue : List Instr), (∀ x, c ≠ .powerOnReset x) →
          exec c { part := p, pending := queue } = .next { part := p, pending := queue })
      ∧ p.sentA = [] ∧ p.sentB = []
      ∧ p.line.state = .unsynchronised ∧ p.line.counter = 0 ∧ p.line.slotOpen = none
      ∧ p.line.timerArmed = false
      ∧ (∀ lane, (laneOf p.line lane).up = false ∧ (laneOf p.line lane).beacons = 0
          ∧ (laneOf p.line lane).misses = 0 ∧ (laneOf p.line lane).errors = 0
          ∧ (laneOf p.line lane).credit = false)
      ∧ (∀ e ∈ slotEntries p.tables.slot.words, e = slotEntryOf 0 0 0)
      ∧ (∀ i, recordAt p i = SlotRecord.cleared) ∧ p.slots.mark = none
      ∧ p.cab.state = .inactive ∧ p.cab.pending = .none ∧ p.cab.stage = .none ∧ p.cab.count = 0
      ∧ p.cab.driveRequest = false
      ∧ p.cab.fault = { cause := .none, stage := .none, table := none }
      ∧ p.cab.key = { value := .off, prev := none }
      ∧ p.cab.cabEnd = { value := if lines.aft then .aft else .fore, prev := none }
      ∧ p.cab.view = .inactive ∧ p.cab.holdMode = .fast
      ∧ p.cab.scrubCount = 0 ∧ p.cab.scrubPass = none
      ∧ (∀ r, getRow p.caps r =
          if r = .line then some 700 else if r = .cab ∨ r = .doors then some 0 else none)
      ∧ permittedSpeed p = 0 ∧ capSource p = .cab
      ∧ p.traction = {
          vEff := 0
          locked := false
          lockCount := 0
          prevDistance := none
          latch := false
          episode := false
          envelopeAlarm := false
          lowAdh := { value := false, prev := none }
          suspended := false
          dPrev := -1000
          demand := { d := -1000, reason := .none, source := .cab, p := 0, v := 0 } }

/-- Power-on reset: the junction, stop and sound units, the table store and the management unit (R130,
R147, R166, R181, R190). Every output is off (R193). That the part stands in this state with RESET_N low
too is the model's choice (notes/assumptions/28.md). -/
def Obligations.PowerOnResetUnitsAndTables : Prop :=
  ∀ (lines : ResetLines) (s : State), ∃ p : Part,
    exec (.powerOnReset lines) s = .next { part := p, pending := s.pending }
      ∧ (∀ pos, openAt p pos = none) ∧ p.junction.queue = [] ∧ p.junction.arbiter = 0
      ∧ p.junction.lastMarker = none ∧ p.junction.selection = 0 ∧ p.junction.selectionFrom = none
      ∧ p.junction.ackBtn = { value := false, prev := none }
      ∧ anyFault p.junction.list = false ∧ p.sound.junctionFault = false
      ∧ getRow p.caps .overflow = none ∧ (∀ pos, getRow p.caps (.junction pos) = none)
      ∧ p.stop.phase = .running ∧ p.stop.request = false ∧ p.stop.push = 0 ∧ p.stop.doorOpen = 0
      ∧ (∀ z : Fin 8, p.stop.assistance[z] = .clear ∧ p.stop.lastStop[z] = none
          ∧ p.stop.lastAssist[z] = none)
      ∧ p.stop.door = none ∧ doorIsStale p = true ∧ getRow p.caps .doors = some 0
      ∧ doorWords p = [0] ∧ signWords p = [0]
      ∧ (∀ x, (getSource p.sound x).state = .idle ∧ (getSource p.sound x).releaseMark = false)
      ∧ (∀ ch, playing p.sound ch = none)
      ∧ p.sound.horn = .off ∧ p.sound.hornCount = 0
      ∧ p.sound.bellBtn = { value := false, prev := none }
      ∧ p.sound.hornBtn = { value := false, prev := none }
      ∧ p.sound.ackBtn = { value := false, prev := none }
      ∧ getRow p.caps .departure = none
      ∧ alarmLamp p = false ∧ bellOut p = false ∧ hornOut p = false ∧ stopLamp p = false
      ∧ chimeTone p = 0 ∧ chimeRole p = 0
      ∧ (∀ t, t ≠ .param → (tableAt p.tables t).words = List.replicate (tableSize t) 0
          ∧ (tableAt p.tables t).ref = 0)
      ∧ p.tables.param.words.map (fun w => w.toNat) =
          [700, 30, 40, 60, 700, 500, 400, 3, 3, 4, 50, 8, 32, 0, 256, 5, 255, 1, 10, 1000, 0, 16, 150,
           1000]
      ∧ p.tables.param.ref = tableSum p.tables.param.words
      ∧ (∀ t, (tableAt p.tables t).lock = .locked ∧ (tableAt p.tables t).faulty = false)
      ∧ p.tables.armed = false ∧ p.tables.depot = { value := false, prev := none }
      ∧ p.tables.front = List.replicate 24 0 ∧ p.tables.back = List.replicate 24 0
      ∧ p.tables.staging = .free ∧ p.tables.pointer = 0 ∧ p.tables.field = .s ∧ p.tables.held = []
      ∧ p.tables.envelopeValid = false
      ∧ (∀ f, hasFlag p.mgmt.flags f = decide (f = .tablesLost)) ∧ p.mgmt.queue = []

/-! ### The car line (chapter 1) -/

/-- A cell the part makes passes the integrity tests and is read with the fields it was made of (R12,
R13, R191): no field of the header is dropped. -/
def Obligations.MadeCellIsReadBack : Prop :=
  ∀ (slot cycle node : Six) (kind : Kind) (payload : List Word),
    payload.length ≤ 8 → (kind = .null → payload = []) →
      ∃ c : Cell, Intact (makeCell slot cycle kind node payload) c
        ∧ c.slot = slot ∧ c.cycle = cycle ∧ c.kind = kind ∧ c.node = node
        ∧ c.length = payload.length ∧ c.payload = payload

/-- In UNSYNCHRONISED and FREE_RUNNING a cell that is no valid beacon is repeated unchanged on its lane
and handed to no block; it is counted where it fails the integrity tests or is of kind BEACON (R1, R5,
R13, R15). That words too few for a header and a check fail the integrity tests is an inference
(notes/assumptions/21.md). While RESET_N is low nothing is repeated (R193). -/
def Obligations.CellRepeatedOutsideSynchronised : Prop :=
  ∀ (lane : Lane) (words : List Word) (lines : Lines) (order : List Work) (s : State),
    (s.part.resetN = false → exec (.cellArrival lane words lines order) s = .next s)
    ∧ (s.part.resetN = true → s.part.line.state ≠ .synchronised → beaconCycle words = none →
      ((∃ c, Intact words c ∧ c.kind ≠ .beacon) →
        exec (.cellArrival lane words lines order) s =
          .next { s with part := drive lane words { s.part with lines := lines } })
      ∧ ((¬ ∃ c, Intact words c ∧ c.kind ≠ .beacon) →
        exec (.cellArrival lane words lines order) s =
          .next { s with part := drive lane words (countError lane { s.part with lines := lines }) }))

/-- A lane's runs and state from its credit (R17): a credit ends the run of misses and lengthens the run
of beacons up to 2, at which a DOWN lane comes UP; no credit ends the run of beacons and lengthens the
run of misses up to 8, at which an UP lane goes DOWN. -/
def Obligations.LaneFollowsItsBeacons : Prop :=
  ∀ x : LaneState, x.beacons ≤ 2 → x.misses ≤ 8 →
    (x.credit = true →
      settleLane true true (countRuns x) =
        { x with
          misses := 0
          beacons := if x.beacons = 0 then 1 else 2
          credit := false
          up := x.up || decide (1 ≤ x.beacons) })
    ∧ (x.credit = false →
      settleLane true true (countRuns x) =
        { x with
          beacons := 0
          misses := if x.misses = 8 then 8 else x.misses + 1
          up := x.up && decide (x.misses < 7) })

/-- A beacon that begins a new cycle makes a beacon-driven cycle start (R3). The open slot closes, at which a
lane with no cell handed over gets outcome SILENT (R34); the lanes take their runs from the credits of the
ending cycle, and its own lane alone has a credit in the new one; the counter takes its number, the line is
SYNCHRONISED, the timer is armed, and slot 0 opens with no governing entry and an empty pairing mark; a number
that is not the expected one sets CYCLE_SLIP, a lane that goes DOWN LANE_DEGRADED, and the loss of both
LINE_LOST (R18). The part so left is presented to every block (R9; `CyclePresented`): the records and the sound
steps age, and then each of the ten works is taken once, in the order that the command carries. Since R9 does
not order them, the order is an operand, by the model's choice (notes/assumptions/4.md). The beacon is repeated
unchanged. Each work is its block's own rule, in any state: the line's loss, which ends an activation, or its
end, at which a waiting drive request or exit from STABLED is taken (R18, R49, R65); the desk lines; the
other-cab view; the activation stage, where one was in progress at the beginning (an inference,
notes/assumptions/15.md) and still is; the scrub; the traction unit's three steps of R79, without the second after a teardown from HOLD SLOW at this
cycle start (R85); and those of the junction, stop and sound units and the table store. -/
def Obligations.BeaconStartsCycle : Prop :=
  (∀ (lane : Lane) (words : List Word) (lines : Lines) (order : List Work) (s : State) (cycle : Six),
    s.part.resetN = true → beaconCycle words = some cycle → BeginsCycle lane cycle s.part →
      ∃ (loss : Option LossChange) (begun presented : Part),
        exec (.cellArrival lane words lines order) s =
          .next { s with part := drive lane words presented }
        ∧ CyclePresented loss order begun presented
        ∧ (loss = some .lost ↔ lineLost s.part = false ∧ lineLost begun = true)
        ∧ (loss = some .ended ↔ lineLost s.part = true ∧ lineLost begun = false)
        ∧ begun = { s.part with
            lines := lines
            line := begun.line
            slots := { (closeSlot s.part).slots with mark := none, governing := none }
            mgmt := { s.part.mgmt with flags := begun.mgmt.flags } }
        ∧ begun.line.counter = cycle ∧ begun.line.state = .synchronised
        ∧ begun.line.timerArmed = true ∧ begun.line.slotOpen = some 0
        ∧ (∀ l, laneOf begun.line l =
            { (settleLane true true (countRuns (laneOf s.part.line l))) with
              credit := decide (l = lane)
              handed := false })
        ∧ (∀ i l, outcomeOn (recordAt begun i) l =
            if (∃ g, s.part.slots.governing = some g ∧ g.index = i)
                ∧ (laneOf s.part.line l).handed = false then .silent
            else outcomeOn (recordAt s.part i) l)
        ∧ (∀ f, hasFlag begun.mgmt.flags f = true ↔ hasFlag s.part.mgmt.flags f = true
            ∨ (f = .cycleSlip ∧ s.part.line.state ≠ .unsynchronised ∧ cycle ≠ s.part.line.counter + 1)
            ∨ (f = .laneDegraded ∧ ∃ l m, (laneOf s.part.line l).up = true
                ∧ (laneOf begun.line l).up = false ∧ (laneOf begun.line m).up = true)
            ∨ (f = .lineLost ∧ loss = some .lost))
        ∧ presented.line = begun.line ∧ presented.slots.governing = none
        ∧ hasFlag presented.mgmt.flags .cycleSlip = hasFlag begun.mgmt.flags .cycleSlip
        ∧ sentOn (drive lane words presented) lane = words :: sentOn s.part lane
        ∧ (∀ l, l ≠ lane → sentOn (drive lane words presented) l = sentOn s.part l)
        ∧ ((∀ x, outstanding s.part.tables = some x → x.table ≠ .slot) →
            ∀ i, (recordAt presented i).age = min 255 ((recordAt s.part i).age + 1)))
  ∧ (∀ (cs : CycleStart) (s : State),
    let p := s.part
    doWork cs .lineLoss p = presentLoss cs.loss p
    ∧ presentLoss none p = p
    ∧ (p.cab.state = .activating →
      ActivationEnded [.actFault]
          { cause := .lineLost, stage := p.cab.stage, table := p.cab.table } p
          (presentLoss (some .lost) p)
        ∧ (presentLoss (some .lost) p).line = p.line)
    ∧ (p.cab.state ≠ .activating → presentLoss (some .lost) p = p)
    ∧ (p.cab.state ≠ .stabled →
      exec .activationAttempt s = .next { s with part := presentLoss (some .ended) p })
    ∧ (p.cab.state = .stabled →
      exec .stabledExit s = .next { s with part := presentLoss (some .ended) p })
    ∧ doWork cs .cabDesk p = deskCycle p
    ∧ doWork cs .cabView p = deriveView p
    ∧ (cs.activating = true → p.cab.state = .activating → doWork cs .cabStage p = stageCycle p)
    ∧ (cs.activating = false ∨ p.cab.state ≠ .activating → doWork cs .cabStage p = p)
    ∧ doWork cs .cabScrub p = scrubCycle p
    ∧ (∀ sensed q : Part,
        sensed = { p with
          traction := { p.traction with lowAdh := sampled p.traction.lowAdh p.lines.lowAdh } } →
        (cs.suspended = true ∧ p.traction.suspended = false ∧ p.cab.state ≠ .active → q = sensed) →
        (cs.suspended = false ∨ p.traction.suspended = true ∨ p.cab.state = .active →
          q = speedInput sensed) →
        doWork cs .traction p = if cabActs q = true then presentEvaluation (evaluate q) else q)
    ∧ doWork cs .junction p = junctionCycle p
    ∧ doWork cs .stop p = testDoors p
    ∧ doWork cs .sound p = soundCycle p
    ∧ doWork cs .tableStore p = tableStoreCycle p)

/-- A valid beacon in SYNCHRONISED that begins no new cycle (R4, R5): a duplicate is counted, a copy in
agreement sets its lane's credit, and a copy in disagreement while slot 0 is open sets the credit and
LANE_DISAGREE. Each is repeated unchanged, and nothing else changes. -/
def Obligations.BeaconCopyIsClassified : Prop :=
  ∀ (lane : Lane) (words : List Word) (lines : Lines) (order : List Work) (s : State) (cycle : Six),
    s.part.resetN = true → beaconCycle words = some cycle → s.part.line.state = .synchronised →
      ((laneOf s.part.line lane).credit = true → cycle = s.part.line.counter →
        exec (.cellArrival lane words lines order) s =
          .next { s with part := drive lane words (countError lane { s.part with lines := lines }) })
      ∧ ((laneOf s.part.line lane).credit = false → cycle = s.part.line.counter →
        exec (.cellArrival lane words lines order) s =
          .next { s with part := drive lane words (creditLane lane { s.part with lines := lines }) })
      ∧ ((laneOf s.part.line lane).credit = false → cycle ≠ s.part.line.counter →
        s.part.line.slotOpen = some 0 →
        exec (.cellArrival lane words lines order) s =
          .next { s with
            part := drive lane words
              (setFlag .laneDisagree (creditLane lane { s.part with lines := lines })) })

/-- The expiry of the local cycle timer makes a substitute cycle start (R7): the open slot closes and none
opens, at which a lane with no cell handed over gets outcome SILENT (R34); the lanes take their runs from the
credits and no credit is set, with LANE_DEGRADED or LINE_LOST where one or both go DOWN (R18); the counter
advances by one mod 64, the line is FREE_RUNNING and the timer is armed. The part so left is presented to
every block as at a beacon (R9; BeaconStartsCycle): the records and the sound steps age, and then each work is
taken once, in the order that the command carries, which is the model's choice (notes/assumptions/4.md).
Nothing is sent; every record ages by one up to 255 (R33), where no transfer to the SLOT table is outstanding.
After a beacon-driven cycle start the expiry comes after slot 63 has opened (R6, R10), so that a beacon taken
first puts it off (R8): before that, and while the timer is disarmed, the event does not occur. That an armed
timer can expire at any other point is the model's choice (notes/assumptions/10.md). -/
def Obligations.TimerExpirySubstitutesCycleStart : Prop :=
  ∀ (lines : Lines) (order : List Work) (s : State),
    (s.part.line.timerArmed = false
        ∨ (s.part.line.state = .synchronised ∧ s.part.line.slotOpen ≠ some 63) →
      exec (.substituteCycleStart lines order) s = .next s)
    ∧ (s.part.line.timerArmed = true →
        (s.part.line.state = .synchronised → s.part.line.slotOpen = some 63) →
      ∃ (loss : Option LossChange) (begun p : Part),
        exec (.substituteCycleStart lines order) s = .next { s with part := p }
        ∧ CyclePresented loss order begun p
        ∧ (loss = some .lost ↔ lineLost s.part = false ∧ lineLost begun = true)
        ∧ (loss = some .ended ↔ lineLost s.part = true ∧ lineLost begun = false)
        ∧ begun = { s.part with
            lines := lines
            line := begun.line
            slots := { (closeSlot s.part).slots with governing := none }
            mgmt := { s.part.mgmt with flags := begun.mgmt.flags } }
        ∧ begun.line.counter = s.part.line.counter + 1 ∧ begun.line.state = .freeRunning
        ∧ begun.line.timerArmed = true ∧ begun.line.slotOpen = none
        ∧ (∀ l, laneOf begun.line l =
            { (settleLane true true (countRuns (laneOf s.part.line l))) with credit := false })
        ∧ (∀ i l, outcomeOn (recordAt begun i) l =
            if (∃ g, s.part.slots.governing = some g ∧ g.index = i)
                ∧ (laneOf s.part.line l).handed = false then .silent
            else outcomeOn (recordAt s.part i) l)
        ∧ (∀ f, hasFlag begun.mgmt.flags f = true ↔ hasFlag s.part.mgmt.flags f = true
            ∨ (f = .laneDegraded ∧ ∃ l m, (laneOf s.part.line l).up = true
                ∧ (laneOf begun.line l).up = false ∧ (laneOf begun.line m).up = true)
            ∨ (f = .lineLost ∧ loss = some .lost))
        ∧ p.line = begun.line ∧ p.slots.governing = none ∧ p.sentA = s.part.sentA ∧ p.sentB = s.part.sentB
        ∧ ((∀ x, outstanding s.part.tables = some x → x.table ≠ .slot) →
            ∀ i, (recordAt p i).age = min 255 ((recordAt s.part i).age + 1)))

/-- The slot timer opens slots 1 to 63 in turn (R10): the slot that was open closes, at which a lane with no
cell handed over gets outcome SILENT in the record that governed it and the other outcomes stand (R34), and
the next opens with its governing entry (R22), an empty pairing mark, and no cell taken on either lane; the
cab authority, the cap table, the traction, stop and sound units and the tables stand. Outside SYNCHRONISED,
and with slot 63 or no slot open, no slot opens. That the row names no slot and opens the next in turn is the
model's choice (notes/assumptions/11.md). -/
def Obligations.SlotTimerOpensNextSlot : Prop :=
  ∀ s : State,
    (∀ n : Six, s.part.line.state = .synchronised → s.part.line.slotOpen = some n → n ≠ 63 →
      ∃ p : Part, exec .slotOpening s = .next { s with part := p }
        ∧ p.line.slotOpen = some (n + 1) ∧ p.line.counter = s.part.line.counter
        ∧ p.line.state = .synchronised ∧ p.slots.mark = none
        ∧ p.slots.governing = governingAt (n + 1) s.part
        ∧ (∀ l, laneOf p.line l = { (laneOf s.part.line l) with handed := false })
        ∧ (∀ i l, outcomeOn (recordAt p i) l =
            if (∃ g, s.part.slots.governing = some g ∧ g.index = i)
                ∧ (laneOf s.part.line l).handed = false then .silent
            else outcomeOn (recordAt s.part i) l)
        ∧ p.cab = s.part.cab ∧ p.caps = s.part.caps ∧ p.traction = s.part.traction
        ∧ p.stop = s.part.stop ∧ p.sound = s.part.sound ∧ p.tables = s.part.tables)
    ∧ (s.part.line.state ≠ .synchronised ∨ s.part.line.slotOpen = none
        ∨ s.part.line.slotOpen = some 63 → exec .slotOpening s = .next s)

/-- LANE_DOWN and LANE_UP (R17, R18). The one UP lane whose run of misses has reached 8 goes DOWN, with
LANE_DEGRADED where the other lane is UP, and LINE_LOST where the other is DOWN; where both go DOWN, LINE_LOST
is set and not LANE_DEGRADED; with no activation in progress nothing else changes. A DOWN lane whose run of
beacons has reached 2 comes UP; where the line was lost, a waiting drive request makes the activation attempt
at that event (R49). That each of the two rows decides both lanes together, as a cycle start does, is an
inference (notes/assumptions/6.md). -/
def Obligations.LaneEventsFollowTheRuns : Prop :=
  ∀ s : State,
    (s.part.cab.state ≠ .activating →
      (∀ l m : Lane, l ≠ m → (laneOf s.part.line l).up = true → 8 ≤ (laneOf s.part.line l).misses →
        (laneOf s.part.line m).up = true → (laneOf s.part.line m).misses < 8 →
          exec .laneDown s = .next { s with
            part := setFlag .laneDegraded { s.part with
              line := withLane s.part.line l { (laneOf s.part.line l) with up := false } } })
      ∧ (∀ l m : Lane, l ≠ m → (laneOf s.part.line l).up = true → 8 ≤ (laneOf s.part.line l).misses →
        (laneOf s.part.line m).up = false →
          exec .laneDown s = .next { s with
            part := setFlag .lineLost { s.part with
              line := withLane s.part.line l { (laneOf s.part.line l) with up := false } } })
      ∧ ((∀ l, (laneOf s.part.line l).up = true ∧ 8 ≤ (laneOf s.part.line l).misses) →
          exec .laneDown s = .next { s with
            part := setFlag .lineLost { s.part with
              line := { s.part.line with
                laneA := { s.part.line.laneA with up := false }
                laneB := { s.part.line.laneB with up := false } } } }))
    ∧ (∀ l m : Lane, l ≠ m → (laneOf s.part.line l).up = false →
        2 ≤ (laneOf s.part.line l).beacons →
        ((laneOf s.part.line m).up = true →
          exec .laneUp s = .next { s with
            part := { s.part with
              line := withLane s.part.line l { (laneOf s.part.line l) with up := true } } })
        ∧ ((laneOf s.part.line m).up = false → (laneOf s.part.line m).beacons < 2 →
          s.part.cab.state = .inactive → s.part.cab.driveRequest = true →
          s.part.cab.view = .inactive →
          ∃ p : Part, exec .laneUp s = .next { s with part := p }
            ∧ p.line = withLane s.part.line l { (laneOf s.part.line l) with up := true }
            ∧ p.cab.state = .activating ∧ p.cab.stage = .settle ∧ p.cab.count = 0
            ∧ p.cab.settleLength = actSettle s.part ∧ p.cab.driveRequest = false
            ∧ p.slots = s.part.slots ∧ p.junction = s.part.junction ∧ p.stop = s.part.stop
            ∧ p.sound = s.part.sound ∧ p.tables = s.part.tables))

/-- A failed activation (R18, R52, R53, R55, R56): the loss of the line, where the last UP lane or both lanes
go DOWN; the thousandth count of BRAKE_TEST, as an event or at a cycle start; and a committed change to a
table that has passed its check each make the cab INACTIVE, with ACT_FAULT and a fault record of the stage,
the table and the cause; D_prev becomes −1000, the emergency latch clears, the SPEED_LOCK row is withdrawn
and every sound source is IDLE. A change to a table not yet checked, and one in any other cab state, has no
effect on the cab. -/
def Obligations.FailedActivationReturnsToInactive : Prop :=
  (∀ s : State, s.part.cab.state = .activating →
    ((∃ l, (laneOf s.part.line l).up = true) →
        (∀ l, (laneOf s.part.line l).up = true → 8 ≤ (laneOf s.part.line l).misses) →
      ∃ p : Part, exec .laneDown s = .next { s with part := p }
        ∧ ActivationEnded [.actFault, .lineLost]
            { cause := .lineLost, stage := s.part.cab.stage, table := s.part.cab.table } s.part p
        ∧ p.line = { s.part.line with
            laneA := { s.part.line.laneA with up := false }
            laneB := { s.part.line.laneB with up := false } })
    ∧ (s.part.cab.stage = .brakeTest → 1000 ≤ s.part.cab.count →
      ∃ p : Part, exec .brakeTimeout s = .next { s with part := p }
        ∧ ActivationEnded [.actFault] { cause := .brakeTimeout, stage := .brakeTest, table := none } s.part p
        ∧ p.line = s.part.line))
  ∧ (∀ p : Part, p.cab.state = .activating → p.cab.stage = .brakeTest →
    (p.cab.count + 1 < 1000 →
      stageCycle p = { p with cab := { p.cab with count := p.cab.count + 1 } })
    ∧ (1000 ≤ p.cab.count + 1 →
      ActivationEnded [.actFault] { cause := .brakeTimeout, stage := .brakeTest, table := none } p
          (stageCycle p)
        ∧ (stageCycle p).line = p.line))
  ∧ (∀ (t : TableId) (p : Part),
    (p.cab.state = .activating → HasBeenChecked t p →
      ActivationEnded [.actFault] { cause := .tableChanged, stage := p.cab.stage, table := some t } p
          (tableChanged t p)
        ∧ (tableChanged t p).line = p.line)
    ∧ (p.cab.state ≠ .activating ∨ ¬ HasBeenChecked t p → tableChanged t p = p))

/-! ### The slot engine (chapter 2) -/

/-- The governing entry of an opening (R22, R23). With both management functions in the table it is the
enabled, matching table entry of lowest index, or none. While no enabled entry has MGMT_IN, slot 62 is
governed in every cycle by TAKE, MGMT_IN, FIRST_VALID under record 80; while none has MGMT_OUT, slot 63
is governed in the cycle of the part's node number by OWN, MGMT_OUT under record 81. -/
def Obligations.GoverningEntryIsFirstMatch : Prop :=
  ∀ (slot : Six) (p : Part), p.tables.slot.words.length = 240 →
    (hasFn p .mgmtIn = true → hasFn p .mgmtOut = true →
      (∀ g, governingAt slot p = some g →
        (slotEntries p.tables.slot.words)[g.index.val]? = some g.entry
          ∧ matchesOpening slot p.line.counter g.entry = true
          ∧ ∀ i e, i < g.index.val → (slotEntries p.tables.slot.words)[i]? = some e →
              matchesOpening slot p.line.counter e = false)
      ∧ (governingAt slot p = none →
          ∀ e ∈ slotEntries p.tables.slot.words, matchesOpening slot p.line.counter e = false))
    ∧ (hasFn p .mgmtIn = false →
      ∃ g, governingAt 62 p = some g ∧ g.index = 80 ∧ g.entry.disposition = .take
        ∧ g.entry.fn = .mgmtIn ∧ g.entry.select = .firstValid ∧ g.entry.len = 8)
    ∧ (hasFn p .mgmtOut = false → p.line.counter = p.node →
      ∃ g, governingAt 63 p = some g ∧ g.index = 81 ∧ g.entry.disposition = .own
        ∧ g.entry.fn = .mgmtOut ∧ g.entry.len = 8)

/-- The outgoing cell of a handed-over cell, by the disposition that applies and the verdict (R25). Under
REWRITE a valid cell that reaches word 2 goes out with the acknowledge value of its zone in word 2, as the
stop unit gives it after it has acted (R30, R144), and keeps its header fields, its zone and its press
counters; that the unassigned bits of the copy are 0 is the model's choice (notes/assumptions/18.md), that a
damaged BEACON of slot 0 is judged as any invalid cell, which R5 has repeated unchanged, is another
(notes/assumptions/34.md), and that words too few for a cell are invalid is an inference
(notes/assumptions/21.md). A
shorter one is repeated unchanged. CELL_ARRIVAL of a cell that is no valid beacon, in an open slot: in slot 0
it is repeated unchanged and counted (R1, R14). In slots 1 to 63 it is judged, an invalid one is counted
(R16), and it is handed over (R1): with no governing entry it is repeated unchanged and leaves no trace (R26);
an invalid one gets outcome INVALID (R34), is repeated under PASS and OBSERVE and replaced by a NULL cell under
TAKE and REWRITE, and is never stored; a valid one is disposed of as above, and its outcome VALID is its only
trace under PASS, under TAKE where it is not addressed to the part (R29), and where the lane select takes no
copy, not this lane's or no NULL cell (R27); a NULL cell that comes first under FIRST_VALID is the pairing mark
besides (R28). -/
def Obligations.OutgoingCellFollowsDisposition : Prop :=
  (∀ (g : Governing) (lane : Lane) (words : List Word) (c : Cell) (valid : Bool) (p : Part),
    let out := (disposeCell g lane words c valid p).2
    let after := (disposeCell g lane words c valid p).1
    let null := makeCell (p.line.slotOpen.getD 0) p.line.counter .null p.node []
    (appliedDisposition p.cab.state g.entry = .pass ∨ appliedDisposition p.cab.state g.entry = .observe →
      out = some words)
    ∧ (appliedDisposition p.cab.state g.entry = .own → out = none)
    ∧ (appliedDisposition p.cab.state g.entry = .take →
      (valid = false → out = some null)
      ∧ (valid = true → IsAddressed c p → out = some null)
      ∧ (valid = true → ¬ IsAddressed c p → out = some words))
    ∧ (appliedDisposition p.cab.state g.entry = .rewrite →
      (valid = false → out = some null)
      ∧ (valid = true → Intact words c →
        (c.length ≤ 2 → out = some words)
        ∧ (∀ z : Fin 8, 3 ≤ c.length → z.val = (wordAt c.payload 0).toNat % 8 →
          ∃ copy c', out = some copy ∧ Intact copy c'
            ∧ c'.slot = c.slot ∧ c'.cycle = c.cycle ∧ c'.kind = c.kind ∧ c'.node = c.node
            ∧ c'.length = c.length
            ∧ c'.payload = [(wordAt c.payload 0) &&& 7, wordAt c.payload 1,
                word (bit after.stop.request + 2 * bit (after.stop.assistance[z] != .clear)
                  + 4 * bit (after.stop.doorOpen.getLsbD z.val))]
                ++ List.replicate (c.length - 3) 0))))
  ∧ (∀ (lane : Lane) (words : List Word) (lines : Lines) (order : List Work) (s : State) (n : Six),
    s.part.resetN = true → s.part.line.state = .synchronised → s.part.line.slotOpen = some n →
    beaconCycle words = none →
      let arrival := exec (.cellArrival lane words lines order) s
      let judged := tookCell lane lines (laneOf s.part.line lane).errors s.part
      let counted := tookCell lane lines (min 65535 ((laneOf s.part.line lane).errors + 1)) s.part
      (n = 0 → arrival =
        .next { s with part := drive lane words (countError lane { s.part with lines := lines }) })
      ∧ (n ≠ 0 → s.part.slots.governing = none →
        (IsValid lane words s.part → arrival = .next { s with part := drive lane words judged })
        ∧ (¬ IsValid lane words s.part →
          arrival = .next { s with part := drive lane words counted }))
      ∧ (∀ g, n ≠ 0 → s.part.slots.governing = some g → ¬ IsValid lane words s.part →
        let after := putRecord g.index (withOutcome lane .invalid (recordAt s.part g.index)) counted
        (appliedDisposition s.part.cab.state g.entry = .pass
            ∨ appliedDisposition s.part.cab.state g.entry = .observe →
          arrival = .next { s with part := drive lane words after })
        ∧ (appliedDisposition s.part.cab.state g.entry = .take
            ∨ appliedDisposition s.part.cab.state g.entry = .rewrite →
          arrival = .next { s with
            part := drive lane (makeCell n s.part.line.counter .null s.part.node []) after }))
      ∧ (∀ (g : Governing) (c : Cell), ArrivesValid lane words c g s.part →
        g.entry.disposition ≠ .own →
        let x := disposeCell g lane words c true judged
        let after := putRecord g.index (withOutcome lane .valid (recordAt s.part g.index)) judged
        (∃ out, x.2 = some out ∧ arrival = .next { s with part := drive lane out x.1 })
        ∧ (appliedDisposition s.part.cab.state g.entry = .pass
            ∨ (appliedDisposition s.part.cab.state g.entry = .take ∧ ¬ IsAddressed c s.part)
            ∨ g.entry.select = .none ∨ (g.entry.select = .A ∧ (lane = .B ∨ c.kind = .null))
            ∨ (g.entry.select = .B ∧ (lane = .A ∨ c.kind = .null)) →
          x.1 = after)
        ∧ (appliedDisposition s.part.cab.state g.entry = .observe
            ∨ appliedDisposition s.part.cab.state g.entry = .rewrite →
          g.entry.select = .firstValid → s.part.slots.mark = none → c.kind = .null →
          x.1 = { after with
            slots := { after.slots with
              mark := some { kind := .null, length := c.length, payload := c.payload } } })))

/-- Under an OWN entry any cell that arrives and is no valid beacon, valid or invalid, is a collision (R31):
it is not repeated and not stored, the record's COLLISION flag is set and the lane's outcome is COLLISION
(R34). An invalid cell is counted against its lane (R16). Nothing else changes. That this holds of a BEACON
of slot 0 that fails the integrity tests, which R5 has repeated unchanged, is the model's choice
(notes/assumptions/34.md); that words too few for a header and a check fail them is an inference
(notes/assumptions/21.md). -/
def Obligations.ArrivalInOwnSlotCollides : Prop :=
  ∀ (lane : Lane) (words : List Word) (lines : Lines) (order : List Work) (s : State) (n : Six)
    (g : Governing), s.part.resetN = true → s.part.line.state = .synchronised →
    s.part.line.slotOpen = some n → n ≠ 0 → s.part.slots.governing = some g →
    g.entry.disposition = .own → beaconCycle words = none →
      ∃ errors : Nat,
        exec (.cellArrival lane words lines order) s =
          .next { s with
            part := putRecord g.index
              { (withOutcome lane .collision (recordAt s.part g.index)) with collision := true }
              { s.part with
                lines := lines
                line := withLane s.part.line lane { (laneOf s.part.line lane) with
                  handed := true
                  errors := errors } } }
        ∧ (IsValid lane words s.part → errors = (laneOf s.part.line lane).errors)
        ∧ (¬ IsValid lane words s.part → errors = min 65535 ((laneOf s.part.line lane).errors + 1))

/-- A valid cell that its entry's disposition, lane select and pairing store (R27 to R30), of whatever
function: the record takes the payload cut or filled to the entry's expected length, the length, the lane,
the cycle and age 0, with NEW set, LOST set where NEW was, and LEN_MISMATCH where the lengths differ (R32;
an expected length out of range in a damaged table: notes/assumptions/38.md);
its lane's outcome is VALID (R34), and under FIRST_VALID the cell is the pairing mark. The record is then
given to the block that owns the function (R24), and the outgoing cell goes out on the lane it came on:
unchanged under OBSERVE, a NULL cell under TAKE. Nothing else changes. Functions GENERIC and EMERGENCY have
no block that acts at a store; HANDLE sets HANDLE_RANGE outside −1000 to +1000 (R80) and ends BRAKE_TEST at
−900 or below (R53). -/
def Obligations.FirstValidCopyIsStored : Prop :=
  ∀ (lane : Lane) (words : List Word) (lines : Lines) (order : List Work) (s : State) (c : Cell)
    (g : Governing), s.part.resetN = true → ArrivesValid lane words c g s.part → c.kind ≠ .null →
    IsStored lane c g s.part →
      let r : SlotRecord := { (withOutcome lane .valid (recordAt s.part g.index)) with
        payload := padTo 8 (c.payload.take g.entry.len)
        length := c.length
        origin := some lane
        cycle := s.part.line.counter
        age := 0
        new := true
        lost := (recordAt s.part g.index).lost || (recordAt s.part g.index).new
        lenMismatch := decide (c.length ≠ g.entry.len)
        stamp := s.part.slots.stores + 1 }
      let stored : Part := putRecord g.index r { s.part with
        lines := lines
        line := withLane s.part.line lane { (laneOf s.part.line lane) with handed := true }
        slots := { s.part.slots with
          stores := s.part.slots.stores + 1
          mark := if g.entry.select = .firstValid then
              some { kind := c.kind, length := c.length, payload := c.payload }
            else s.part.slots.mark } }
      (∃ out, exec (.cellArrival lane words lines order) s =
          .next { s with part := drive lane out (deliver g.index g.entry.fn c.kind r stored) }
        ∧ (appliedDisposition s.part.cab.state g.entry = .observe → out = words)
        ∧ (appliedDisposition s.part.cab.state g.entry = .take →
            out = makeCell c.slot s.part.line.counter .null s.part.node [])
        ∧ (appliedDisposition s.part.cab.state g.entry = .rewrite → 3 ≤ c.length →
            wordAt out 4 =
              word (acknowledge (deliver g.index g.entry.fn c.kind r stored) (zoneOf c))))
      ∧ (g.entry.fn = .generic ∨ g.entry.fn = .emergency →
          deliver g.index g.entry.fn c.kind r stored = stored)
      ∧ (g.entry.fn = .handle →
          deliver g.index g.entry.fn c.kind r stored = { stored with
            mgmt := { stored.mgmt with
              flags := if (wordAt r.payload 0).toInt < -1000 ∨ 1000 < (wordAt r.payload 0).toInt then
                withFlag stored.mgmt.flags .handleRange else stored.mgmt.flags }
            cab := if s.part.cab.state = .activating ∧ s.part.cab.stage = .brakeTest
                ∧ (wordAt r.payload 0).toInt ≤ -900 then
                { s.part.cab with stage := .speedLock, count := 0 } else s.part.cab })

/-- A second valid copy under FIRST_VALID (R28): one that agrees with the first in kind, length and received
words is ignored; one that differs sets the record's LANE_DISAGREE and the sticky flag, and is not stored. That
copies which differ only in unassigned bits, which R191 has the part ignore, disagree is the model's choice
(notes/assumptions/41.md).
CELL_ARRIVAL of a second valid copy, under OBSERVE, under REWRITE, and under TAKE where it is addressed to the
part: its outcome is VALID (R34), it is compared as said, nothing else changes, and the cell goes out on the
lane it came on, unchanged under OBSERVE (R27), as a NULL cell under TAKE (R29), and under REWRITE with the
acknowledge value as it stands, where it reaches that word, and else unchanged (R30). -/
def Obligations.SecondCopyIsCompared : Prop :=
  (∀ (g : Governing) (lane : Lane) (c : Cell) (p : Part) (first : PairingMark),
    g.entry.select = .firstValid → p.slots.mark = some first →
      (first.kind = c.kind ∧ first.length = c.length ∧ first.payload = c.payload →
        observeCell g lane c p = p)
      ∧ (¬ (first.kind = c.kind ∧ first.length = c.length ∧ first.payload = c.payload) →
        observeCell g lane c p =
          setFlag .laneDisagree
            (putRecord g.index { (recordAt p g.index) with laneDisagree := true } p)))
  ∧ (∀ (lane : Lane) (words : List Word) (lines : Lines) (order : List Work) (s : State) (c : Cell)
      (g : Governing) (first : PairingMark), s.part.resetN = true → ArrivesValid lane words c g s.part →
    g.entry.select = .firstValid → s.part.slots.mark = some first →
    appliedDisposition s.part.cab.state g.entry = .observe
      ∨ appliedDisposition s.part.cab.state g.entry = .rewrite
      ∨ (appliedDisposition s.part.cab.state g.entry = .take ∧ IsAddressed c s.part) →
      let agrees := first.kind = c.kind ∧ first.length = c.length ∧ first.payload = c.payload
      let record := withOutcome lane .valid (recordAt s.part g.index)
      let judged := tookCell lane lines (laneOf s.part.line lane).errors s.part
      ∃ out : List Word,
        (agrees → exec (.cellArrival lane words lines order) s =
          .next { s with part := drive lane out (putRecord g.index record judged) })
        ∧ (¬ agrees → exec (.cellArrival lane words lines order) s =
          .next { s with
            part := drive lane out (setFlag .laneDisagree
              (putRecord g.index { record with laneDisagree := true } judged)) })
        ∧ (appliedDisposition s.part.cab.state g.entry = .observe → out = words)
        ∧ (appliedDisposition s.part.cab.state g.entry = .take →
          out = makeCell c.slot s.part.line.counter .null s.part.node [])
        ∧ (appliedDisposition s.part.cab.state g.entry = .rewrite →
          (c.length ≤ 2 → out = words)
          ∧ (3 ≤ c.length → wordAt out 4 = word (acknowledge s.part (zoneOf c)))))

/-- The disposition that applies, by the entry's disposition and function in each cab state (R39): TAKE and
REWRITE of another function than their own behave as OBSERVE of that function (R29, R30). -/
def Obligations.CabStateDegradesDispositions : Prop :=
  ∀ (e : SlotEntry) (st : CabState),
    (e.disposition = .pass → appliedDisposition st e = .pass)
    ∧ (e.disposition = .own → appliedDisposition st e = .own)
    ∧ (e.disposition = .take → e.fn = .mgmtIn → appliedDisposition st e = .take)
    ∧ (e.disposition = .rewrite → e.fn = .stopButton →
        appliedDisposition st e =
          if st = .inactive then .observe else if st = .stabled then .pass else .rewrite)
    ∧ (e.disposition = .observe ∨ (e.disposition = .take ∧ e.fn ≠ .mgmtIn)
          ∨ (e.disposition = .rewrite ∧ e.fn ≠ .stopButton) →
        appliedDisposition st e =
          if st = .stabled ∧ e.fn ≠ .mgmtIn ∧ e.fn ≠ .otherCab then .pass else .observe)

/-- An opening governed by an OWN entry (R36): with a lane UP, the content of the entry's function is taken
(StandingContentIsEmitted, ResponseQueueHoldsFour) from the part as the opening leaves it, and one cell
goes out, the same on each lane that is UP and none on a lane that is DOWN: of kind MGMT for MGMT_OUT, of
kind DATA for any other function, and a NULL cell where there is no content. With no lane UP nothing is
taken or sent. At an opening of any other entry the part sends nothing. -/
def Obligations.OwnCellIsSentOnUpLanes : Prop :=
  ∀ (s : State) (n : Six) (g : Governing), s.part.line.state = .synchronised →
    s.part.line.slotOpen = some n → n ≠ 63 → governingAt (n + 1) s.part = some g →
      let closed := closeSlot s.part
      let opened : Part := { closed with
        line := { closed.line with
          slotOpen := some (n + 1)
          laneA := { closed.line.laneA with handed := false }
          laneB := { closed.line.laneB with handed := false } }
        slots := { closed.slots with mark := none, governing := some g } }
      let taken := (emission g opened).1
      let cell :=
        match (emission g opened).2 with
        | some content =>
          makeCell (n + 1) s.part.line.counter (if g.entry.fn = .mgmtOut then .mgmt else .data)
            s.part.node content
        | none => makeCell (n + 1) s.part.line.counter .null s.part.node []
      (g.entry.disposition = .own → (∃ l, (laneOf s.part.line l).up = true) →
        exec .slotOpening s = .next { s with
          part := { taken with
            sentA := if s.part.line.laneA.up then cell :: s.part.sentA else s.part.sentA
            sentB := if s.part.line.laneB.up then cell :: s.part.sentB else s.part.sentB } })
      ∧ (g.entry.disposition ≠ .own ∨ (∀ l, (laneOf s.part.line l).up = false) →
        exec .slotOpening s = .next { s with part := opened })

/-- The content of an OWN slot (R36 to R39, R47, R100, R143, R162): the standing content of DEMAND_OUT,
CAB_STATUS_OUT, SIGN_OUT, DOOR_OUT and CHIME_OUT, and the arbiter's item of POINT_REQUEST_OUT. In INACTIVE
and STABLED each of them but CAB_STATUS_OUT takes no content, and the arbiter is not asked. With SINGLE a
standing content is emitted only where it is not what was last sent (R37); what is emitted is the content
cut or filled to the expected length, and last sent takes it. An expected length out of range in a
damaged table is taken as it stands, which is the model's choice (notes/assumptions/38.md). -/
def Obligations.StandingContentIsEmitted : Prop :=
  ∀ (g : Governing) (p : Part),
    ((p.cab.state = .inactive ∨ p.cab.state = .stabled) →
      g.entry.fn = .demandOut ∨ g.entry.fn = .pointRequestOut ∨ g.entry.fn = .signOut
        ∨ g.entry.fn = .doorOut ∨ g.entry.fn = .chimeOut → emission g p = (p, none))
    ∧ (cabActs p = true → g.entry.fn = .pointRequestOut →
      ((nextItem p).2 = none → emission g p = nextItem p)
      ∧ (∀ item, (nextItem p).2 = some item →
        emission g p =
          (putRecord g.index
            { (recordAt (nextItem p).1 g.index) with lastSent := some (padTo g.entry.len item) }
            (nextItem p).1, some (padTo g.entry.len item))))
    ∧ (∀ content : List Word,
      (g.entry.fn = .demandOut ∧ cabActs p = true ∧ content =
          [signedWord p.traction.demand.d,
           word (reasonCode p.traction.demand.reason * 256 + rowCode p.traction.demand.source),
           word p.traction.demand.p, word p.traction.demand.v])
      ∨ (g.entry.fn = .cabStatusOut ∧ content =
          [word (cabStateCode p.cab.state * 4096 + pendingCode p.cab.pending * 256
            + stageCode p.cab.stage * 16),
           word (endCode p.cab.cabEnd.value * 256 + keyCode p.cab.key.value)])
      ∨ (g.entry.fn = .signOut ∧ cabActs p = true ∧ ∃ zones : Byte,
          (∀ z : Fin 8, zones.getLsbD z.val = decide (p.stop.assistance[z] ≠ .clear))
            ∧ content = [word (bit p.stop.request * 256 + zones.toNat)])
      ∨ (g.entry.fn = .doorOut ∧ cabActs p = true ∧ content = [word p.stop.doorOpen.toNat])
      ∨ (g.entry.fn = .chimeOut ∧ cabActs p = true ∧
          ((playing p.sound .chime = none ∧ content = [0])
          ∨ ∃ x, playing p.sound .chime = some x ∧ (getSource p.sound x).pattern.tone ≤ 15
            ∧ content = [word ((if x = .stop then 1 else if x = .assist then 2 else 3) * 256
                + (if (getSource p.sound x).phaseOn = true then (getSource p.sound x).pattern.tone
                  else 0))])) →
      (g.entry.single = true → (recordAt p g.index).lastSent = some (padTo g.entry.len content) →
        emission g p = (p, none))
      ∧ (g.entry.single = false
          ∨ (recordAt p g.index).lastSent ≠ some (padTo g.entry.len content) →
        emission g p =
          (putRecord g.index
            { (recordAt p g.index) with lastSent := some (padTo g.entry.len content) } p,
           some (padTo g.entry.len content))))

/-- The response queue (R38, R184): a response joins as the newest with its data words filled out to
five, or is discarded with RESPONSE_LOST where four wait; an opening of a MGMT_OUT slot takes the oldest, at the
entry's expected length (one out of range in a damaged table: notes/assumptions/38.md), or nothing. -/
def Obligations.ResponseQueueHoldsFour : Prop :=
  ∀ (p : Part) (tag code : Byte) (result : Result) (data : List Word),
    (p.mgmt.queue.length < 4 → respond tag code result data p =
      { p with mgmt := { p.mgmt with queue := p.mgmt.queue ++
        [{ node := p.node, code := code, tag := tag, result := result, data := padTo 5 data }] } })
    ∧ (4 ≤ p.mgmt.queue.length → respond tag code result data p = setFlag .responseLost p)
    ∧ (∀ g : Governing, g.entry.fn = .mgmtOut →
        (p.mgmt.queue = [] → emission g p = (p, none))
        ∧ (∀ r rs, p.mgmt.queue = r :: rs →
            (emission g p).2 = some (padTo g.entry.len
                (word (r.node.toNat * 1024 + r.code.toNat) :: word r.tag.toNat
                  :: word (resultCode r.result) :: r.data))
              ∧ (emission g p).1.mgmt = { p.mgmt with queue := rs }))

/-! ### Cab authority (chapter 3) -/

/-- The other-cab view and what a change of it does. OTHER_CAB_TIMEOUT (R46): with the OTHER_CAB record older
than 5, or no enabled entry with the function, the view becomes INACTIVE, which changes nothing else; with a
record of age 5 or less the event does not occur. At each store into an OTHER_CAB record and at each cycle
start (R46) the view is derived: INACTIVE from a silent record, else the state field of the record, where a
code of none of the five states gives ACTIVE. A view as before is no event. A change (R55, R57) ends an
activation with CAB_CONFLICT where the view becomes ACTIVE or HOLD, or ACTIVATING with the recognised END at
AFT; in ACTIVE a view other than INACTIVE sets CAB_CONFLICT and requests ALARM; in HOLD it sets CAB_CONFLICT
alone; else only the view changes. That an event row acts exactly where the condition of its rule holds in the
state is the model's choice (notes/assumptions/5.md). -/
def Obligations.OtherCabViewFollowsItsRecord : Prop :=
  (∀ s : State,
    ((∀ r, fnRecord s.part .otherCab = some r → 5 < r.age) →
      exec .otherCabTimeout s = .next { s with
        part := { s.part with cab := { s.part.cab with view := .inactive } } })
    ∧ ((∃ r, fnRecord s.part .otherCab = some r ∧ r.age ≤ 5) → exec .otherCabTimeout s = .next s))
  ∧ (∀ (i : Fin 82) (kind : Kind) (r : SlotRecord) (p : Part),
      deliver i .otherCab kind r p = deriveView p)
  ∧ (∀ (cs : CycleStart) (p : Part), doWork cs .cabView p = deriveView p)
  ∧ (∀ (p : Part) (v : CabState),
    ((∀ r, fnRecord p .otherCab = some r → 5 < r.age) → v = .inactive) →
    (∀ r, fnRecord p .otherCab = some r → r.age ≤ 5 →
      v = (match (wordAt r.payload 0).toNat / 4096 with
        | 0 => .inactive | 1 => .activating | 2 => .active | 3 => .hold | 4 => .stabled
        | _ => .active)) →
    let q : Part := { p with cab := { p.cab with view := v } }
    (v = p.cab.view → deriveView p = p)
    ∧ (v ≠ p.cab.view →
      (p.cab.state = .inactive ∨ p.cab.state = .stabled → deriveView p = q)
      ∧ (p.cab.state = .activating →
        (v = .active ∨ v = .hold ∨ (v = .activating ∧ p.cab.cabEnd.value = .aft) →
          ActivationEnded [.cabConflict] p.cab.fault q (deriveView p) ∧ (deriveView p).line = p.line)
        ∧ (v = .inactive ∨ v = .stabled ∨ (v = .activating ∧ p.cab.cabEnd.value = .fore) →
          deriveView p = q))
      ∧ (p.cab.state = .hold →
        deriveView p = if v = .inactive then q else setFlag .cabConflict q)
      ∧ (p.cab.state = .active →
        (v = .inactive → deriveView p = q)
        ∧ (v ≠ .inactive →
          (p.sound.alarm.state ≠ .idle → deriveView p = setFlag .cabConflict q)
          ∧ (p.sound.alarm.state = .idle →
            deriveView p = { setFlag .cabConflict q with sound := (deriveView p).sound }
            ∧ ((patternOf p.tables.cadence.words .alarm).steps ≠ 0 →
                (deriveView p).sound.alarm.state ≠ .idle))))))

/-- ACTIVATION_ATTEMPT (R49, R78, R84, R94): in INACTIVE with the drive request set and the line not lost, a
view INACTIVE or STABLED makes the cab ACTIVATING at SETTLE with the settle length act_settle, the demand is
−1000 with reason ACTIVATING, and the SPEED_LOCK row is set at creep_cap while the speed lock is UNLOCKED;
another view sets CAB_CONFLICT. Either way the drive request is cleared. Otherwise no attempt is made. That an
event row acts exactly where the condition of its rule holds in the state is the model's choice
(notes/assumptions/5.md). -/
def Obligations.AttemptReadsTheOtherCab : Prop :=
  ∀ s : State,
    (s.part.cab.state = .inactive → s.part.cab.driveRequest = true → lineLost s.part = false →
      ((s.part.cab.view = .inactive ∨ s.part.cab.view = .stabled) →
        ∃ p : Part, exec .activationAttempt s = .next { s with part := p }
          ∧ p.cab = { s.part.cab with
              state := .activating
              stage := .settle
              table := none
              count := 0
              settleLength := actSettle s.part
              pending := .none
              driveRequest := false }
          ∧ p.traction.dPrev = -1000
          ∧ p.traction.demand = {
              d := -1000
              reason := .activating
              source := capSource p
              p := permittedSpeed p
              v := s.part.traction.vEff }
          ∧ p.caps = (if s.part.traction.locked then s.part.caps
              else { s.part.caps with speedLock := some (creepCap s.part) })
          ∧ p.line = s.part.line ∧ p.slots = s.part.slots ∧ p.junction = s.part.junction
          ∧ p.stop = s.part.stop ∧ p.sound = s.part.sound ∧ p.tables = s.part.tables
          ∧ p.mgmt.queue = s.part.mgmt.queue)
      ∧ (s.part.cab.view ≠ .inactive → s.part.cab.view ≠ .stabled →
        exec .activationAttempt s = .next { s with
          part := setFlag .cabConflict { s.part with
            cab := { s.part.cab with driveRequest := false } } }))
    ∧ ((s.part.cab.state ≠ .inactive ∨ s.part.cab.driveRequest = false ∨ lineLost s.part = true) →
      exec .activationAttempt s = .next s)

/-- SETTLE_COMPLETE and the table check. In SETTLE (R50) the count goes up by one at each cycle start, and
where it reaches the settle length the stage is TABLE_CHECK at SLOT with count 0. In TABLE_CHECK (R51) a cycle
start checks the table under check, which is one of SLOT, PARAM, ENVELOPE, CADENCE, MARKER and ROUTE in this
order: where its structural check fails, the activation fails with cause STRUCTURE; where its sum differs from
its reference sum or it is FAULTY, with cause SUM; and where both pass, the next table is under check, or
after ROUTE the stage is BRAKE_TEST with count 0. The content checked is that at the check, whether a transfer
of the same cycle start has completed before it or completes after it, which is the model's choice between R51
and R52 (notes/assumptions/39.md). The structural checks are those of R41 and R180. That an event row acts
exactly where the condition of its rule holds in the state is the model's choice (notes/assumptions/5.md). -/
def Obligations.SettleAndTableCheckEndInTurn : Prop :=
  (∀ s : State, s.part.cab.state = .activating → s.part.cab.stage = .settle →
    (s.part.cab.settleLength ≤ s.part.cab.count →
      exec .settleComplete s = .next { s with
        part := { s.part with
          cab := { s.part.cab with stage := .tableCheck, table := some .slot, count := 0 } } })
    ∧ (s.part.cab.count < s.part.cab.settleLength →
      exec .settleComplete s = .next s
        ∧ stageCycle s.part = { s.part with
            cab := if s.part.cab.count + 1 = s.part.cab.settleLength then
                { s.part.cab with stage := .tableCheck, table := some .slot, count := 0 }
              else { s.part.cab with count := s.part.cab.count + 1 } }))
  ∧ (∀ (p : Part) (t : TableId), p.cab.state = .activating → p.cab.stage = .tableCheck →
      p.cab.table = some t →
    let sound := tableSum (tableAt p.tables t).words = (tableAt p.tables t).ref
      ∧ (tableAt p.tables t).faulty = false
    (structureOk p.tables t = false →
      ActivationEnded [.actFault] { cause := .structure, stage := .tableCheck, table := some t } p
          (stageCycle p)
        ∧ (stageCycle p).line = p.line)
    ∧ (structureOk p.tables t = true → ¬ sound →
      ActivationEnded [.actFault] { cause := .sum, stage := .tableCheck, table := some t } p (stageCycle p)
        ∧ (stageCycle p).line = p.line)
    ∧ (structureOk p.tables t = true → sound →
      (∀ u, tableCode u = tableCode t + 1 →
        stageCycle p = { p with cab := { p.cab with table := some u } })
      ∧ (t = .route →
        stageCycle p = { p with
          cab := { p.cab with stage := .brakeTest, table := none, count := 0 } })))
  ∧ (∀ ts : TableStore,
    (structureOk ts .slot = true ↔
      ∀ es : List SlotEntry, es = (slotEntries ts.slot.words).filter (fun e => e.enable) →
        (∀ f ∈ [Fn.handle, .speed, .marker, .doorStatus, .emergency, .otherCab, .demandOut,
            .cabStatusOut, .pointRequestOut, .chimeOut], es.countP (fun e => e.fn == f) = 1)
        ∧ (∀ e ∈ es, e.fn = .demandOut → e.single = false)
        ∧ (∃ e ∈ es, e.fn = .mgmtIn) ∧ (∃ e ∈ es, e.fn = .mgmtOut)
        ∧ (∀ e ∈ es, e.disposition = .own ↔ isOwned e.fn = true)
        ∧ (∀ (i j : Nat) (a b : SlotEntry), i < j → es[i]? = some a → es[j]? = some b →
            ¬ (a.slot = b.slot ∧ a.base = b.base ∧ a.rep = b.rep)))
    ∧ (structureOk ts .param = true ↔
      ts.param.words.length = 24
        ∧ ∀ (i : Nat) (w : Word) (lo hi : Nat), ts.param.words[i]? = some w →
          [(0, 1000), (5, 100), (1, 1000), (1, 1000), (100, 1000), (100, 1000), (100, 1000), (1, 15),
            (1, 15), (1, 15), (0, 200), (2, 63), (8, 255), (0, 1), (16, 4095), (1, 15), (1, 255), (0, 1),
            (1, 63), (50, 3000), (0, 16), (1, 16), (0, 300), (0, 1000)][i]? = some (lo, hi) →
          lo ≤ w.toNat ∧ w.toNat ≤ hi)
    ∧ (structureOk ts .envelope = true ↔ ∀ w ∈ ts.envelope.words, w.toNat ≤ 1000)
    ∧ (structureOk ts .cadence = true ↔
      (∀ x : Source,
        let w0 := wordAt ts.cadence.words (32 + 2 * patternIndex x)
        let w1 := wordAt ts.cadence.words (33 + 2 * patternIndex x)
        (w0 = 0 ∧ w1 = 0) ∨ patternInRange x w0 w1 = true)
      ∧ 1 ≤ (patternOf ts.cadence.words .alarm).steps
      ∧ (isOn (wordAt ts.param.words 17) = true → 1 ≤ (patternOf ts.cadence.words .depart).steps))
    ∧ (structureOk ts .marker = true ↔
      (∀ (i : Nat) (w0 w1 : Word), ts.marker.words[2 * i]? = some w0 → ts.marker.words[2 * i + 1]? = some w1 →
        (markerEntryOf w0 w1).id = 0 ∨ markerInRange w0 w1 = true)
      ∧ (∀ (i j : Nat) (a b : MarkerEntry), i < j → (markerEntries ts.marker.words)[i]? = some a →
          (markerEntries ts.marker.words)[j]? = some b → a.id ≠ 0 → a.id ≠ b.id))
    ∧ (structureOk ts .route = true ↔
      (∀ j : Nat, j < 64 → ∀ ws : List Word, ws = (ts.route.words.drop (20 * j)).take 20 →
        ((∀ w ∈ ws, w = 0) ∨ routeEntryInRange ws = true)
        ∧ ((routeEntryOf ws).defined = true →
            ((routeEntryOf ws).route? (routeEntryOf ws).dflt).isSome = true
            ∧ (∀ (i k : Nat) (a b : Route), i < k → (routeEntryOf ws).routes[i]? = some a →
                (routeEntryOf ws).routes[k]? = some b → a.code ≠ b.code)))
      ∧ (∀ m ∈ markerEntries ts.marker.words, m.id ≠ 0 →
          (routeEntryOf ((ts.route.words.drop (20 * m.junction.toNat)).take 20)).defined = true)))

/-- The SPEED_LOCK stage and ENTRY_TO_ACTIVE (R54). At a cycle start in the stage a SPEED record of age
speed_stale or less takes the count up by one, and at lock_count the cab enters ACTIVE; an older one, or none,
returns the count to 0. At the entry the cab is ACTIVE with stage and pending exit NONE, the CAB row is
withdrawn and the trip phase is RUNNING; with departure_warning ON and DEPART IDLE with a pattern of steps,
DEPART leaves IDLE and the DEPARTURE row is 0; another view than INACTIVE sets CAB_CONFLICT and requests ALARM
(R57). That the record is stale with no enabled SPEED entry is an inference (notes/assumptions/27.md). That an
event row acts exactly where the condition of its rule holds in the state is the model's choice
(notes/assumptions/5.md). -/
def Obligations.EntryToActiveOpensTheRow : Prop :=
  ∀ s : State, s.part.cab.state = .activating → s.part.cab.stage = .speedLock →
    ((∀ x, fnRecord s.part .speed = some x → speedStale s.part < x.age) →
      stageCycle s.part = { s.part with cab := { s.part.cab with count := 0 } })
    ∧ (∀ x, fnRecord s.part .speed = some x → x.age ≤ speedStale s.part →
      let counted : Part := { s.part with cab := { s.part.cab with count := s.part.cab.count + 1 } }
      (s.part.cab.count + 1 < lockCountNeeded s.part → stageCycle s.part = counted)
      ∧ (lockCountNeeded s.part ≤ s.part.cab.count + 1 →
        exec .entryToActive { s with part := counted } = .next { s with part := stageCycle s.part }))
    ∧ (s.part.cab.count < lockCountNeeded s.part → exec .entryToActive s = .next s)
    ∧ (lockCountNeeded s.part ≤ s.part.cab.count →
      ∃ p : Part, exec .entryToActive s = .next { s with part := p }
        ∧ p.cab = { s.part.cab with
            state := .active
            stage := .none
            table := none
            count := 0
            pending := .none }
        ∧ p.caps.cab = none
        ∧ (∀ r, r ≠ .cab → r ≠ .departure → getRow p.caps r = getRow s.part.caps r)
        ∧ p.stop = { s.part.stop with phase := .running }
        ∧ (departureWarning s.part = false → p.caps.departure = s.part.caps.departure
            ∧ p.sound.depart = s.part.sound.depart)
        ∧ (departureWarning s.part = true → s.part.sound.depart.state = .idle →
            (patternOf s.part.tables.cadence.words .depart).steps ≠ 0 →
            p.caps.departure = some 0 ∧ p.sound.depart.state ≠ .idle)
        ∧ (s.part.cab.view = .inactive → p.mgmt = s.part.mgmt ∧ p.sound.alarm = s.part.sound.alarm)
        ∧ (s.part.cab.view ≠ .inactive →
            p.mgmt = { s.part.mgmt with flags := withFlag s.part.mgmt.flags .cabConflict }
            ∧ ((patternOf s.part.tables.cadence.words .alarm).steps ≠ 0 →
                p.sound.alarm.state ≠ .idle))
        ∧ p.line = s.part.line ∧ p.slots = s.part.slots ∧ p.traction = s.part.traction
        ∧ p.junction = s.part.junction ∧ p.tables = s.part.tables)

/-- PENDING_EXIT_TAKEN with HOLD (R58, R59, R60): with v_eff 0 and D at most 0 at the latest evaluation the
waiting exit takes the cab to HOLD with the exit mode of hold_exit latched and the CAB row at 0; the speed
supervision is suspended with SLOW alone; DRIVER_BELL is IDLE; the junction and stop units keep their state.
With v_eff above 0, or with D above 0, as an evaluation before the exit was set can leave it, the exit waits,
HOLD and OFF alike. An evaluation made while an exit waits has D at most 0, since the CAB row holds P at 0;
presented with v_eff 0 it takes the exit as the command does, and with v_eff above 0 it leaves it waiting.
That an event row acts exactly where the condition of its rule holds in the state is the model's choice
(notes/assumptions/5.md). -/
def Obligations.WaitingHoldIsTakenAtRest : Prop :=
  ∀ s : State, s.part.cab.state = .active →
    (s.part.cab.pending = .hold ∨ s.part.cab.pending = .off →
      (s.part.traction.demand.v ≠ 0 ∨ 0 < s.part.traction.demand.d →
        exec .pendingExitTaken s = .next s)
      ∧ (s.part.caps.cab = some 0 →
        (evaluate s.part).traction.demand.d ≤ 0
          ∧ exec .pendingExitTaken { s with part := evaluate s.part } =
              .next { s with part := presentEvaluation (evaluate s.part) }))
    ∧ (s.part.cab.pending = .hold → s.part.traction.demand.v = 0 → s.part.traction.demand.d ≤ 0 →
      ∃ p : Part, exec .pendingExitTaken s = .next { s with part := p }
        ∧ p.cab = { s.part.cab with
            state := .hold
            pending := .none
            holdMode := holdExit s.part }
        ∧ p.caps.cab = some 0
        ∧ (∀ r, r ≠ .cab → r ≠ .departure → getRow p.caps r = getRow s.part.caps r)
        ∧ p.traction = { s.part.traction with
            episode := false
            envelopeAlarm := false
            suspended := decide (holdExit s.part = .slow) }
        ∧ p.sound.driverBell.state = .idle ∧ p.sound.alarm = s.part.sound.alarm
        ∧ p.sound.assist = s.part.sound.assist ∧ p.sound.stop = s.part.sound.stop
        ∧ p.sound.horn = s.part.sound.horn
        ∧ p.line = s.part.line ∧ p.slots = s.part.slots ∧ p.junction = s.part.junction
        ∧ p.stop = s.part.stop ∧ p.tables = s.part.tables ∧ p.mgmt = s.part.mgmt)

/-- PENDING_EXIT_TAKEN with OFF is the teardown (R59, R62, R102, R129, R145, R165): INACTIVE with the CAB row
at 0; no open record, no queued RELEASE, no JUNCTION, OVERFLOW, DEPARTURE or SPEED_LOCK row; no stop request,
push, assistance or door-open request; every source IDLE and every output off; D_prev −1000 and the latch
clear. RELEASE_DROPPED is set where a RELEASE waited or a record's SET had been sent. The LINE, DOORS and
RESTRICT rows, the selection and the last marker counter stand. A JUNCTION row is present only with its record
before it (StepKeepsTheJunctionRowsAndTheLamp). That an event row acts exactly where the condition of its rule
holds in the state is the model's choice (notes/assumptions/5.md). -/
def Obligations.TeardownClearsTheUnits : Prop :=
  ∀ s : State, s.part.cab.state = .active → s.part.cab.pending = .off →
    s.part.traction.demand.v = 0 → s.part.traction.demand.d ≤ 0 → JunctionOk s.part →
      ∃ p : Part, exec .pendingExitTaken s = .next { s with part := p } ∧ TornDown s.part p

/-- SCRUB_PASS_BEGIN, the scrub at a cycle start, and STABLED_EXIT (R64, R65). A scrub count of scrub_interval
begins a pass: the count returns to 0, and SLOT is marked FAULTY with TABLE_FAULT where its sum differs from
its reference sum. At each cycle start in STABLED the count goes up by one, that it stays at 4095 being an
inference (notes/assumptions/26.md), and at scrub_interval with no pass in progress the pass begins; a pass in
progress checks one table, from PARAM to ROUTE in turn, marks it and sets TABLE_FAULT as for SLOT, a FAULTY
table staying so, and ends with ROUTE, where the exit that it held back is taken. Outside STABLED the scrub
does nothing. With no pass in progress a pending WAKE makes the cab INACTIVE; a pending DRIVE waits while the
line is lost, and otherwise begins an activation with stable_settle, or, against another cab that holds or
takes authority, makes the cab INACTIVE with CAB_CONFLICT. While a pass runs the exit waits. That an event row
acts exactly where the condition of its rule holds in the state is the model's choice
(notes/assumptions/5.md). -/
def Obligations.StabledScrubsAndLeaves : Prop :=
  (∀ p : Part, p.cab.state ≠ .stabled → scrubCycle p = p)
  ∧ (∀ s : State, s.part.cab.state = .stabled →
    let counted : Part := { s.part with
      cab := { s.part.cab with scrubCount := min 4095 (s.part.cab.scrubCount + 1) } }
    (s.part.cab.scrubPass = none →
      (min 4095 (s.part.cab.scrubCount + 1) < scrubInterval s.part → scrubCycle s.part = counted)
      ∧ (scrubInterval s.part ≤ min 4095 (s.part.cab.scrubCount + 1) →
        exec .scrubPassBegin { s with part := counted } = .next { s with part := scrubCycle s.part }))
    ∧ (∀ (t : TableId) (next : Option TableId) (checked : Part), s.part.cab.scrubPass = some t →
      (t = .route → next = none) →
      (t ≠ .route → ∃ u, next = some u ∧ tableCode u = tableCode t + 1) →
      (tableSum (tableAt s.part.tables t).words = (tableAt s.part.tables t).ref →
        checked = { counted with cab := { counted.cab with scrubPass := next } }) →
      (tableSum (tableAt s.part.tables t).words ≠ (tableAt s.part.tables t).ref →
        checked = setFlag .tableFault { counted with
          cab := { counted.cab with scrubPass := next }
          tables := putTable s.part.tables t { (tableAt s.part.tables t) with faulty := true } }) →
      (t ≠ .route → scrubCycle s.part = checked)
      ∧ (t = .route →
        exec .stabledExit { s with part := checked } = .next { s with part := scrubCycle s.part })))
  ∧ ∀ s : State, s.part.cab.state = .stabled →
    (s.part.cab.scrubPass = none → scrubInterval s.part ≤ s.part.cab.scrubCount →
      (tableSum s.part.tables.slot.words = s.part.tables.slot.ref →
        exec .scrubPassBegin s = .next { s with
          part := { s.part with
            cab := { s.part.cab with scrubCount := 0, scrubPass := some .param } } })
      ∧ (tableSum s.part.tables.slot.words ≠ s.part.tables.slot.ref →
        exec .scrubPassBegin s = .next { s with
          part := setFlag .tableFault { s.part with
            cab := { s.part.cab with scrubCount := 0, scrubPass := some .param }
            tables := { s.part.tables with
              slot := { s.part.tables.slot with faulty := true } } } }))
    ∧ (s.part.cab.scrubPass.isSome = true → exec .stabledExit s = .next s)
    ∧ (s.part.cab.scrubPass = none →
      (s.part.cab.pending = .wake →
        exec .stabledExit s = .next { s with
          part := { s.part with cab := { s.part.cab with state := .inactive, pending := .none } } })
      ∧ (s.part.cab.pending = .drive → lineLost s.part = true → exec .stabledExit s = .next s)
      ∧ (s.part.cab.pending = .drive → lineLost s.part = false →
          (s.part.cab.view = .inactive ∨ s.part.cab.view = .stabled →
            ∃ p : Part, exec .stabledExit s = .next { s with part := p }
              ∧ p.cab = { s.part.cab with
                  state := .activating
                  stage := .settle
                  table := none
                  count := 0
                  settleLength := stableSettle s.part
                  pending := .none
                  driveRequest := false }
              ∧ p.traction.demand.d = -1000 ∧ p.traction.demand.reason = .activating
              ∧ p.line = s.part.line ∧ p.slots = s.part.slots ∧ p.junction = s.part.junction
              ∧ p.stop = s.part.stop ∧ p.sound = s.part.sound ∧ p.tables = s.part.tables)
          ∧ (s.part.cab.view ≠ .inactive → s.part.cab.view ≠ .stabled →
            exec .stabledExit s = .next { s with
              part := setFlag .cabConflict { s.part with
                cab := { s.part.cab with state := .inactive, pending := .none } } })))

/-- The two-sample rule (R44): the first sample is recorded without a comparison; a value seen twice in
succession is recognised; and a recognised value that has changed was seen twice in succession. The desk
lines at a cycle start (R44, R45): KEY and END are sampled, and where no KEY value is recognised nothing else
changes. A recognised KEY acts by the cab state. INACTIVE (R49): DRIVE sets the drive request, and the
activation attempt, where it is due, is made at once; another value clears it. ACTIVATING (R55, R56): HOLD
and OFF end the activation with no flag and the fault record as it was. ACTIVE (R58): HOLD and OFF set the
pending exit, which is taken at once with v_eff 0 and D at most 0 at the latest evaluation, and otherwise
waits, with KEY_MOVING and the CAB row at 0; while one waits the other replaces it; DRIVE cancels it and
withdraws the row. HOLD (R61, R85): DRIVE returns to ACTIVE, with SLOW under the SPEED_LOCK row at creep_cap
and the speed lock restarted; OFF is the teardown. STABLED (R65): DRIVE is the pending exit, taken at once
where no scrub pass runs and the line is not lost; another value withdraws a pending DRIVE. -/
def Obligations.RecognisedKeyActsByCabState : Prop :=
  (∀ (r : Recogniser Key) (xs : List Key),
    (∀ v, r.prev = none → sampled r v = { value := r.value, prev := some v })
    ∧ (∀ v, ((xs ++ [v, v]).foldl sampled r).value = v)
    ∧ ((xs.foldl sampled r).value ≠ r.value →
        ∃ ys zs, r.prev.toList ++ xs =
          ys ++ (xs.foldl sampled r).value :: (xs.foldl sampled r).value :: zs))
  ∧ (∀ (cs : CycleStart) (p : Part), doWork cs .cabDesk p = deskCycle p)
  ∧ (∀ (s : State) (key : Key) (strap : CabEnd),
    (key = .drive ↔ s.part.lines.key = 2) → (key = .hold ↔ s.part.lines.key = 1) →
    (strap = .aft ↔ s.part.lines.aft = true) →
    let cab := s.part.cab
    let q : Part := { s.part with
      cab := { cab with
        key := { value := if cab.key.prev = some key then key else cab.key.value, prev := some key }
        cabEnd := {
          value := if cab.cabEnd.prev = some strap then strap else cab.cabEnd.value
          prev := some strap } } }
    (cab.key.prev ≠ some key ∨ cab.key.value = key → deskCycle s.part = q)
    ∧ (cab.key.prev = some key → cab.key.value ≠ key →
      (cab.state = .inactive →
        (key = .drive →
          exec .activationAttempt { s with
              part := { q with cab := { q.cab with driveRequest := true } } } =
            .next { s with part := deskCycle s.part })
        ∧ (key ≠ .drive → deskCycle s.part = { q with cab := { q.cab with driveRequest := false } }))
      ∧ (cab.state = .activating →
        (key = .drive → deskCycle s.part = q)
        ∧ (key ≠ .drive → ActivationEnded [] cab.fault q (deskCycle s.part)
            ∧ (deskCycle s.part).line = s.part.line))
      ∧ (cab.state = .active →
        (key = .drive → cab.pending = .none → deskCycle s.part = q)
        ∧ (key = .drive → cab.pending ≠ .none →
          deskCycle s.part = { q with
            cab := { q.cab with pending := .none }
            caps := { s.part.caps with cab := none } })
        ∧ (∀ x : PendingExit, (key = .hold ∧ x = .hold) ∨ (key = .off ∧ x = .off) →
          (cab.pending ≠ .none →
            deskCycle s.part = { q with cab := { q.cab with pending := x } })
          ∧ (cab.pending = .none → s.part.traction.demand.v ≠ 0 ∨ 0 < s.part.traction.demand.d →
            deskCycle s.part = setFlag .keyMoving { q with
              cab := { q.cab with pending := x }
              caps := { s.part.caps with cab := some 0 } })
          ∧ (cab.pending = .none → s.part.traction.demand.v = 0 → s.part.traction.demand.d ≤ 0 →
            exec .pendingExitTaken { s with part := { q with cab := { q.cab with pending := x } } } =
              .next { s with part := deskCycle s.part })))
      ∧ (cab.state = .hold →
        (key = .drive →
          deskCycle s.part = { q with
            cab := { q.cab with state := .active }
            caps := { s.part.caps with
              cab := none
              speedLock := if cab.holdMode = .slow then some (creepCap s.part)
                else s.part.caps.speedLock }
            traction :=
              if cab.holdMode = .slow then
                { s.part.traction with suspended := false, locked := false, lockCount := 0 }
              else s.part.traction })
        ∧ (key = .off → JunctionOk s.part → TornDown q (deskCycle s.part))
        ∧ (key = .hold → deskCycle s.part = q))
      ∧ (cab.state = .stabled →
        (key = .drive →
          exec .stabledExit { s with part := { q with cab := { q.cab with pending := .drive } } } =
            .next { s with part := deskCycle s.part })
        ∧ (key ≠ .drive → cab.pending = .drive →
          deskCycle s.part = { q with cab := { q.cab with pending := .none } })
        ∧ (key ≠ .drive → cab.pending ≠ .drive → deskCycle s.part = q))))

/-! ### Speed caps and traction (chapters 4 and 5) -/

/-- P is the least value among the present rows, the cap source is the first row that holds it, P is at
most the LINE row, which with the tables in order holds line_cap, at most 1000, and P is 0 where a present
row is 0 (R69). -/
def Obligations.PermittedSpeedIsTheLeastRow : Prop :=
  ∀ p : Part,
    (∀ r v, getRow p.caps r = some v → permittedSpeed p ≤ v)
    ∧ getRow p.caps (capSource p) = some (permittedSpeed p)
    ∧ (∀ r, getRow p.caps r = some (permittedSpeed p) → rowCode (capSource p) ≤ rowCode r)
    ∧ (TablesOk p → permittedSpeed p ≤ lineCap p ∧ lineCap p ≤ 1000)
    ∧ ((∃ r, getRow p.caps r = some 0) → permittedSpeed p = 0)

/-- The SPEED record. A store (R82, R86, R121): SPEED_RANGE above 1000; the delta is the new distance count
minus the previous mod 65536, 0 for the first, and above 1000 it is dropped with DIST_JUMP; each committed
record of the open junction list gains the delta and closes at its release distance, and no other record
changes. The speed input at a cycle start (R79, R82, R85): while the supervision is SUSPENDED nothing of it
changes; else, with a record of age speed_stale or less, v_eff takes its word 0 clamped to 1000, and with an
older one, or none, it keeps its value; then the speed lock is updated. A teardown from HOLD SLOW makes the
mode NORMAL, and the traction unit's work at the cycle start of the teardown, taken after it, leaves v_eff, the
lock and its count; where the mode was NORMAL when a cycle start began, the work in INACTIVE updates them
(R85). SPEED_SOURCE_STALE, SPEED_LOCK_ACQUIRED and the speed lock at a cycle start (R83,
R84): a LOCKED lock that finds the record stale is UNLOCKED with count 0, and the SPEED_LOCK row is set at
creep_cap in ACTIVATING, ACTIVE and HOLD; an UNLOCKED lock counts fresh records, and at lock_count it is
LOCKED and the row is withdrawn. That the count saturates at 15 is an inference (notes/assumptions/26.md);
that a route count out of range in a damaged table is read as it stands, for the release distance, is the
model's choice (notes/assumptions/38.md). That an event row acts exactly where the condition of its rule holds
in the state is the model's choice (notes/assumptions/5.md). -/
def Obligations.SpeedLockFollowsTheRecord : Prop :=
  (∀ (i : Fin 82) (kind : Kind) (x : SlotRecord) (p : Part) (delta : Nat),
    (p.traction.prevDistance = none → delta = 0) →
    (∀ prev, p.traction.prevDistance = some prev → delta = (wordAt x.payload 1 - prev).toNat) →
      let q := deliver i .speed kind x p
      q.traction = { p.traction with prevDistance := some (wordAt x.payload 1) }
        ∧ (1000 < (wordAt x.payload 0).toNat → hasFlag q.mgmt.flags .speedRange = true)
        ∧ (1000 < delta → hasFlag q.mgmt.flags .distJump = true)
        ∧ ((wordAt x.payload 0).toNat ≤ 1000 →
            hasFlag q.mgmt.flags .speedRange = hasFlag p.mgmt.flags .speedRange)
        ∧ (delta ≤ 1000 → hasFlag q.mgmt.flags .distJump = hasFlag p.mgmt.flags .distJump)
        ∧ (∀ pos : Fin 4, openAt p pos = none →
            openAt q pos = none ∧ q.caps.junctions[pos] = p.caps.junctions[pos])
        ∧ (∀ (pos : Fin 4) (r : JunctionRecord), openAt p pos = some r →
            (delta = 0 ∨ 1000 < delta
                ∨ (r.state ≠ .committed ∧ r.state ≠ .fault .commitUnconfirmed) →
              openAt q pos = some r ∧ q.caps.junctions[pos] = p.caps.junctions[pos])
            ∧ (0 < delta → delta ≤ 1000 → r.state = .committed ∨ r.state = .fault .commitUnconfirmed →
              (min 65535 (r.distance + delta) < (routeEntry p r.junction).releaseDistance r.route →
                openAt q pos = some { r with distance := min 65535 (r.distance + delta) }
                  ∧ q.caps.junctions[pos] = p.caps.junctions[pos])
              ∧ ((routeEntry p r.junction).releaseDistance r.route ≤ min 65535 (r.distance + delta) →
                openAt q pos = none ∧ q.caps.junctions[pos] = none)))
        ∧ q.cab = p.cab ∧ q.stop = p.stop ∧ q.slots = p.slots ∧ q.tables = p.tables ∧ q.line = p.line)
  ∧ (∀ p : Part,
    (p.traction.suspended = true → speedInput p = p)
    ∧ (p.traction.suspended = false →
      (∀ x, fnRecord p .speed = some x → x.age ≤ speedStale p →
        speedInput p = updateLock { p with
          traction := { p.traction with vEff := min 1000 (wordAt x.payload 0).toNat } })
      ∧ ((∀ x, fnRecord p .speed = some x → speedStale p < x.age) → speedInput p = updateLock p))
    ∧ (speedFresh p = true ↔ ∃ x, fnRecord p .speed = some x ∧ x.age ≤ speedStale p))
  ∧ (∀ (cs : CycleStart) (p sensed : Part),
    sensed = { p with
      traction := { p.traction with lowAdh := sampled p.traction.lowAdh p.lines.lowAdh } } →
    (tractionTeardown p).traction.suspended = false
    ∧ (p.cab.state = .inactive → p.traction.suspended = false →
      (cs.suspended = true → doWork cs .traction p = sensed)
      ∧ (cs.suspended = false → doWork cs .traction p = speedInput sensed)))
  ∧ (∀ s : State, s.part.traction.suspended = true →
    exec .speedSourceStale s = .next s ∧ exec .speedLockAcquired s = .next s)
  ∧ ∀ s : State, s.part.traction.suspended = false →
    (s.part.traction.locked = true → speedFresh s.part = false →
      exec .speedSourceStale s = .next { s with part := updateLock s.part }
      ∧ exec .speedSourceStale s = .next { s with
        part := { s.part with
          traction := { s.part.traction with locked := false, lockCount := 0 }
          caps := if cabActs s.part then { s.part.caps with speedLock := some (creepCap s.part) }
            else s.part.caps } })
    ∧ (s.part.traction.locked = false → speedFresh s.part = true →
      lockCountNeeded s.part ≤ s.part.traction.lockCount →
      exec .speedLockAcquired s = .next { s with
        part := { s.part with
          traction := { s.part.traction with locked := true }
          caps := { s.part.caps with speedLock := none } } })
    ∧ (s.part.traction.locked = true → speedFresh s.part = true → updateLock s.part = s.part)
    ∧ (s.part.traction.locked = false → speedFresh s.part = false →
        updateLock s.part = { s.part with traction := { s.part.traction with lockCount := 0 } })
    ∧ (s.part.traction.locked = false → speedFresh s.part = true →
        updateLock s.part =
          if lockCountNeeded s.part ≤ min 15 (s.part.traction.lockCount + 1) then
            { s.part with
              traction := { s.part.traction with
                locked := true
                lockCount := min 15 (s.part.traction.lockCount + 1) }
              caps := { s.part.caps with speedLock := none } }
          else
            { s.part with
              traction := { s.part.traction with
                lockCount := min 15 (s.part.traction.lockCount + 1) } })

/-- A positive D is computed only in ACTIVE, with the latch clear and v_eff below the P of the evaluation
(R98), whatever the tables hold. -/
def Obligations.PositiveDemandIsBelowThePermittedSpeed : Prop :=
  ∀ p : Part, cabActs p = true → 0 < (evaluate p).traction.demand.d →
    p.cab.state = .active ∧ emergencyActive p = false ∧ (evaluate p).traction.latch = false
      ∧ (evaluate p).traction.demand.v < (evaluate p).traction.demand.p
      ∧ (evaluate p).traction.demand.v = p.traction.vEff
      ∧ (evaluate p).traction.demand.p = permittedSpeed p

/-- The evaluation in ACTIVATING, ACTIVE and HOLD. It sets EMERG_STALE with no EMERGENCY record of age at
most 3 (R87), HANDLE_STALE with none of the handle at most handle_stale old (R81), ENVELOPE_INVALID and OVERSPEED
as said below, and no other flag. The latch (R88): an active emergency condition sets it;
without one a fresh handle at −900 or less clears it. Stage 1 (R94): ACTIVATING gives −1000, HOLD −B_hold and
the latch −1000, and D is that target; otherwise the target is H of a fresh handle or −B_stale. Stage 2
(R95), with P and M: at v_eff at least P + M, or at least P in a forced episode, FORCED makes it −B_force;
else at v_eff at least P, CUT makes it at most 0. Stage 3 (R97) keeps it within T and −B. Stage 4 (R98)
ramps it from D_prev by at most R_up and R_down, but not after CUT or FORCED. The reason is that of the last
stage that changed X or D. The forced episode (R96): it begins at P + M with OVERSPEED, ALARM and the lamp,
and ends below P. The envelope alarm follows the validity mark (R91), with ENVELOPE_INVALID. The beginning and
the end of each are presented to the sound unit (R101). D_prev and the DEMAND_OUT content take D, the cap
source, P and v_eff (R100). Nothing else changes; the sound sources stand where no episode begins. -/
def Obligations.DemandFollowsTheFourStages : Prop :=
  ∀ p : Part, cabActs p = true →
    let r := (evaluate p).traction
    let P := permittedSpeed p
    let M := overspeedMargin p
    let v := p.traction.vEff
    let T := (limits p).1
    let B := (limits p).2
    r.dPrev = r.demand.d ∧ r.demand.source = capSource p ∧ r.demand.p = P ∧ r.demand.v = v
    ∧ (∀ x, fnRecord p .emergency = some x → x.age ≤ 3 → (wordAt x.payload 0).getLsbD 0 = true →
        r.latch = true)
    ∧ ((∀ x, fnRecord p .emergency = some x → 3 < x.age ∨ (wordAt x.payload 0).getLsbD 0 = false) →
      ((∃ x, fnRecord p .handle = some x ∧ x.age ≤ handleStale p
          ∧ (wordAt x.payload 0).toInt ≤ -900) → r.latch = false)
      ∧ ((∀ x, fnRecord p .handle = some x → handleStale p < x.age
          ∨ -900 < (wordAt x.payload 0).toInt) → r.latch = p.traction.latch))
    ∧ (p.cab.state = .activating → r.demand.d = -1000 ∧ r.demand.reason = .activating)
    ∧ (p.cab.state = .hold → r.demand.d = -(holdBrake p : Int) ∧ r.demand.reason = .hold)
    ∧ (p.cab.state = .active → r.latch = true → r.demand.d = -1000 ∧ r.demand.reason = .emergency)
    ∧ (p.cab.state = .active → r.latch = false → ∀ (H : Int) (why : Reason),
      (∀ x, fnRecord p .handle = some x → x.age ≤ handleStale p →
        H = max (-1000) (min 1000 (wordAt x.payload 0).toInt) ∧ why = .handle) →
      ((∀ x, fnRecord p .handle = some x → handleStale p < x.age) →
        H = -(staleBrake p : Int) ∧ why = .staleHandle) →
      (P + M ≤ v ∨ (P ≤ v ∧ p.traction.episode = true) →
        r.demand.d = max (-(forceBrake p : Int)) (-B)
          ∧ r.demand.reason = (if B < (forceBrake p : Int) then .envelopeB else .forced))
      ∧ (P ≤ v → v < P + M → p.traction.episode = false →
        r.demand.d = max (min H 0) (-B)
          ∧ r.demand.reason = (if H < -B then .envelopeB else if 0 < H then .cut else why))
      ∧ (v < P → ∀ X : Int, X = (if 0 < H then min H T else max H (-B)) →
        r.demand.d =
            (if p.traction.dPrev < X then min X (p.traction.dPrev + rampUp p)
              else if X < p.traction.dPrev then max X (p.traction.dPrev - rampDown p) else X)
          ∧ r.demand.reason =
            (if r.demand.d ≠ X then .ramp else if 0 < H ∧ T < H then .envelopeT
              else if H < -B then .envelopeB else why)))
    ∧ (p.cab.state = .active →
      r.envelopeAlarm = !p.tables.envelopeValid
      ∧ (p.tables.envelopeValid = false → hasFlag (evaluate p).mgmt.flags .envelopeInvalid = true)
      ∧ (v < P → r.episode = false)
      ∧ (P ≤ v → r.latch = false → P + M ≤ v →
        r.episode = true
          ∧ (p.traction.episode = false →
            hasFlag (evaluate p).mgmt.flags .overspeed = true ∧ alarmLamp (evaluate p) = true
              ∧ ((patternOf p.tables.cadence.words .alarm).steps ≠ 0 →
                  (evaluate p).sound.alarm.state ≠ .idle)))
      ∧ (P ≤ v → r.latch = true ∨ v < P + M → r.episode = p.traction.episode))
    ∧ (p.cab.state ≠ .active →
      r.episode = p.traction.episode ∧ r.envelopeAlarm = p.traction.envelopeAlarm)
    ∧ (∀ f, hasFlag (evaluate p).mgmt.flags f = true ↔ hasFlag p.mgmt.flags f = true
      ∨ (f = .emergStale ∧ ∀ x, fnRecord p .emergency = some x → 3 < x.age)
      ∨ (f = .handleStale ∧ ∀ x, fnRecord p .handle = some x → handleStale p < x.age)
      ∨ (f = .envelopeInvalid ∧ p.cab.state = .active ∧ p.tables.envelopeValid = false)
      ∨ (f = .overspeed ∧ p.traction.episode = false ∧ r.episode = true))
    ∧ (evaluate p).sound.forced =
        (if r.episode = p.traction.episode then p.sound.forced else r.episode)
    ∧ (evaluate p).sound.envelope =
        (if r.envelopeAlarm = p.traction.envelopeAlarm then p.sound.envelope else r.envelopeAlarm)
    ∧ (p.traction.episode = true ∨ r.episode = false →
        ∀ x, getSource (evaluate p).sound x = getSource p.sound x)
    ∧ evaluate p = { p with
        traction := { p.traction with
          latch := r.latch
          episode := r.episode
          envelopeAlarm := r.envelopeAlarm
          dPrev := r.dPrev
          demand := r.demand }
        sound := { p.sound with
          alarm := (evaluate p).sound.alarm
          assist := (evaluate p).sound.assist
          stop := (evaluate p).sound.stop
          forced := (evaluate p).sound.forced
          envelope := (evaluate p).sound.envelope }
        mgmt := { p.mgmt with flags := (evaluate p).mgmt.flags } }

/-- The limits T and B. With a valid envelope they are read at v_eff from the region used (R90, R92): of the
n breakpoints in use, where the split k is below 16 and below n, region L is those from k on, used while
LOW_ADH is recognised, and region N those before k; else region N is all of them. Over a region's
breakpoints (R92): the first's limits at or below its speed, the last's at or above its speed, and between
two neighbours the interpolation truncated toward zero, which lies between the two breakpoint values. With
an invalid envelope they are T_fb and B_fb (R93). With the tables in order (TablesOk) they lie from 0 to 1000,
and the speeds of the region used are strictly ascending where the mark shows the envelope valid (R91). -/
def Obligations.LimitsInterpolateBetweenBreakpoints : Prop :=
  (∀ (v : Nat) (bs : List Breakpoint), ascending bs = true →
    (∀ a rest, bs = a :: rest → v ≤ a.s → limitsOver v bs = ((a.t : Int), (a.b : Int)))
    ∧ (∀ rest a, bs = rest ++ [a] → a.s ≤ v → limitsOver v bs = ((a.t : Int), (a.b : Int)))
    ∧ (∀ i a b, bs[i]? = some a → bs[i + 1]? = some b → a.s ≤ v → v < b.s →
        limitsOver v bs =
            ((a.t : Int) + Int.tdiv (((b.t : Int) - a.t) * ((v : Int) - a.s)) ((b.s : Int) - a.s),
             (a.b : Int) + Int.tdiv (((b.b : Int) - a.b) * ((v : Int) - a.s)) ((b.s : Int) - a.s))
          ∧ min (a.t : Int) b.t ≤ (limitsOver v bs).1 ∧ (limitsOver v bs).1 ≤ max (a.t : Int) b.t
          ∧ min (a.b : Int) b.b ≤ (limitsOver v bs).2 ∧ (limitsOver v bs).2 ≤ max (a.b : Int) b.b))
  ∧ (∀ p : Part,
    let n := param p 20
    let k := param p 21
    let used := (breakpoints p.tables.envelope.words).take n
    (p.tables.envelopeValid = true →
      (k < 16 → k < n → p.traction.lowAdh.value = true →
        limits p = limitsOver p.traction.vEff (used.drop k)
          ∧ (TablesOk p → ascending (used.drop k) = true))
      ∧ (k < 16 → k < n → p.traction.lowAdh.value = false →
        limits p = limitsOver p.traction.vEff (used.take k)
          ∧ (TablesOk p → ascending (used.take k) = true ∧ (used.take k).length = k))
      ∧ (16 ≤ k ∨ n ≤ k →
        limits p = limitsOver p.traction.vEff used
          ∧ (TablesOk p → ascending used = true ∧ used.length = n)))
    ∧ (p.tables.envelopeValid = false → limits p = ((param p 22 : Int), (param p 23 : Int)))
    ∧ (TablesOk p → 0 ≤ (limits p).1 ∧ (limits p).1 ≤ 1000 ∧ 0 ≤ (limits p).2 ∧ (limits p).2 ≤ 1000))

/-! ### Junction unit (chapter 6) -/

/-- The route selection (R108, R109, R115). At a ROUTE_SELECT store the code becomes the selection and its
entry the one that gave it. SELECTION_TIMEOUT, and the test at a cycle start, which does the same (R110): a
selection that no record has given, or whose record is older than 10, becomes 0; with a record of age 10 or
less the event does not occur, also where a TRANSFER has cleared the record and a store has filled it again
since, which is the model's choice (notes/assumptions/40.md). Outside ACTIVE and HOLD, or where the selection
is as before, nothing else changes. In ACTIVE and HOLD a selection that changes acts on every open record: one
not committed restarts its request where the effective route, the selection or, for 0, its junction's default
route, is defined and is not the route it has, and a committed one keeps its route with ROUTE_LOCKED. That an
event row acts exactly where the condition of its rule holds in the state is the model's choice
(notes/assumptions/5.md). -/
def Obligations.SelectionChangesRestartRequests : Prop :=
  (∀ (i : Fin 82) (kind : Kind) (r : SlotRecord) (p : Part) (code : BitVec 4),
    code.toNat = (wordAt r.payload 0).toNat % 16 →
    (deliver i .routeSelect kind r p).junction.selectionFrom = some i
    ∧ (code = p.junction.selection ∨ cabLive p = false →
      deliver i .routeSelect kind r p = { p with
        junction := { p.junction with selection := code, selectionFrom := some i } })
    ∧ (code ≠ p.junction.selection → cabLive p = true →
      SelectionTaken code p (deliver i .routeSelect kind r p)))
  ∧ (∀ s : State,
    exec .selectionTimeout s = .next { s with part := testSelection s.part }
    ∧ (∀ i, s.part.junction.selectionFrom = some i → (recordAt s.part i).age ≤ 10 →
      exec .selectionTimeout s = .next s)
    ∧ ((∀ i, s.part.junction.selectionFrom = some i → 10 < (recordAt s.part i).age) →
      (s.part.junction.selection = 0 ∨ cabLive s.part = false →
        exec .selectionTimeout s = .next { s with
          part := { s.part with junction := { s.part.junction with selection := 0 } } })
      ∧ (s.part.junction.selection ≠ 0 → cabLive s.part = true →
        ∃ p : Part, exec .selectionTimeout s = .next { s with part := p }
          ∧ p.junction.selectionFrom = s.part.junction.selectionFrom ∧ SelectionTaken 0 s.part p)))

/-- Requests end in confirmation or in FAULT. The junction unit at a cycle start (R110): ACK_BTN is sampled,
the selection is tested, and then, at the positions in turn, the count of a REQUESTED record goes up by one,
that it stays at 65535 being an inference (notes/assumptions/26.md), and in ACTIVE and HOLD the record enters
FAULT(TIMEOUT) where the count has reached its junction's timeout; a record in another state is not counted.
REQUEST_TIMEOUT (R112, R119): a REQUESTED record whose count has reached its junction's timeout enters
FAULT(TIMEOUT), its JUNCTION row is 0, ALARM is requested and the junction fault condition holds; the other
positions stand. A record in another state, one that has not reached it, and any record outside ACTIVE and
HOLD, is not timed out. A POINT_STATUS store in ACTIVE and HOLD (R116 to R118), at each open record of the
reported address whose route has the reported point: in REQUESTED its settings join or leave the confirmation
set, and the record is CONFIRMED with its row at the route cap when the set is complete; a report not in
agreement takes a CONFIRMED record to FAULT(LOCK_LOST) with its row at 0, and sets LOCK_LOST_UNDER for a
COMMITTED one; a record in FAULT, and every other record, stands. For a route that names the reported point
twice, that one setting not in agreement is enough for LOCK_LOST and LOCK_LOST_UNDER is an inference
(notes/assumptions/22.md); a setting count out of range in a damaged table is read as it stands, by the
model's choice (notes/assumptions/38.md). That an event row acts exactly where the condition of its rule holds
in the state is the model's choice (notes/assumptions/5.md). -/
def Obligations.RequestTimesOutToFault : Prop :=
  (∀ p : Part, junctionCycle p =
    ([0, 1, 2, 3] : List (Fin 4)).foldl countRequest (testSelection (sampleJunctionAck p)))
  ∧ (∀ (s : State) (pos : Fin 4),
    (openAt s.part pos = none →
      countRequest s.part pos = s.part ∧ exec (.requestTimeout pos) s = .next s)
    ∧ (cabLive s.part = false → exec (.requestTimeout pos) s = .next s)
    ∧ (∀ r, openAt s.part pos = some r →
      (r.state ≠ .requested → countRequest s.part pos = s.part)
      ∧ (r.state = .requested →
        let counted : Part := { s.part with junction := { s.part.junction with
          list := s.part.junction.list.set pos (some { r with count := min 65535 (r.count + 1) }) } }
        (cabLive s.part = true → (routeEntry s.part r.junction).timeout ≤ min 65535 (r.count + 1) →
          exec (.requestTimeout pos) { s with part := counted } =
            .next { s with part := countRequest s.part pos })
        ∧ (cabLive s.part = false
            ∨ min 65535 (r.count + 1) < (routeEntry s.part r.junction).timeout →
          countRequest s.part pos = counted))))
  ∧ (∀ (s : State) (pos : Fin 4) (r : JunctionRecord), cabLive s.part = true →
      openAt s.part pos = some r →
      (r.state = .requested → (routeEntry s.part r.junction).timeout ≤ r.count →
        ∃ p : Part, exec (.requestTimeout pos) s = .next { s with part := p }
          ∧ openAt p pos = some { r with state := .fault .timeout, count := 0, confirmed := 0 }
          ∧ p.caps = { s.part.caps with junctions := s.part.caps.junctions.set pos (some 0) }
          ∧ (∀ pos', pos' ≠ pos → openAt p pos' = openAt s.part pos')
          ∧ (s.part.sound.junctionFault = anyFault s.part.junction.list →
              p.sound.junctionFault = true ∧ alarmLamp p = true)
          ∧ ((patternOf s.part.tables.cadence.words .alarm).steps ≠ 0 → p.sound.alarm.state ≠ .idle)
          ∧ p.junction.queue = s.part.junction.queue ∧ p.junction.arbiter = s.part.junction.arbiter
          ∧ p.line = s.part.line ∧ p.slots = s.part.slots ∧ p.cab = s.part.cab
          ∧ p.traction = s.part.traction ∧ p.stop = s.part.stop ∧ p.tables = s.part.tables
          ∧ p.mgmt = s.part.mgmt)
      ∧ (r.state ≠ .requested ∨ r.count < (routeEntry s.part r.junction).timeout →
        exec (.requestTimeout pos) s = .next s))
  ∧ (∀ (i : Fin 82) (kind : Kind) (x : SlotRecord) (p : Part),
    let q := deliver i .pointStatus kind x p
    let point := (wordAt x.payload 1).extractLsb' 8 3
    let agrees := fun setting : Setting =>
      (wordAt x.payload 1).toNat / 16 % 4 = (if setting.right then 2 else 1)
        ∧ (wordAt x.payload 1).getLsbD 0 = true
    (cabLive p = false → q = p)
    ∧ (cabLive p = true →
      (∀ pos : Fin 4, openAt p pos = none →
        openAt q pos = none ∧ q.caps.junctions[pos] = p.caps.junctions[pos])
      ∧ (∀ (pos : Fin 4) (r : JunctionRecord), openAt p pos = some r →
        ((inFault r = true ∨ (routeEntry p r.junction).address ≠ (wordAt x.payload 0).toNat % 256
            ∨ (∀ route, (routeEntry p r.junction).route? r.route = some route →
                ∀ setting ∈ route.settings, setting.point ≠ point)) →
          openAt q pos = some r ∧ q.caps.junctions[pos] = p.caps.junctions[pos])
        ∧ (∀ route, (routeEntry p r.junction).address = (wordAt x.payload 0).toNat % 256 →
          (routeEntry p r.junction).route? r.route = some route →
          (∃ setting ∈ route.settings, setting.point = point) →
          (r.state = .requested → ∃ set : BitVec 3,
            (∀ (n : Nat) (setting : Setting), route.settings[n]? = some setting →
              (set.getLsbD n = true ↔
                if setting.point = point then agrees setting else r.confirmed.getLsbD n = true))
            ∧ (if ∀ n, n < route.settings.length → set.getLsbD n = true then
                openAt q pos = some { r with state := .confirmed, count := 0, confirmed := set }
                  ∧ q.caps.junctions[pos] = some route.cap
              else
                openAt q pos = some { r with confirmed := set }
                  ∧ q.caps.junctions[pos] = p.caps.junctions[pos]))
          ∧ (r.state = .confirmed →
            ((∃ setting ∈ route.settings, setting.point = point ∧ ¬ agrees setting) →
              openAt q pos = some { r with state := .fault .lockLost, count := 0, confirmed := 0 }
                ∧ q.caps.junctions[pos] = some 0
                ∧ ((patternOf p.tables.cadence.words .alarm).steps ≠ 0 → q.sound.alarm.state ≠ .idle))
            ∧ ((∀ setting ∈ route.settings, setting.point = point → agrees setting) →
              openAt q pos = some r ∧ q.caps.junctions[pos] = p.caps.junctions[pos]))
          ∧ (r.state = .committed →
            openAt q pos = some r ∧ q.caps.junctions[pos] = p.caps.junctions[pos]
              ∧ ((∃ setting ∈ route.settings, setting.point = point ∧ ¬ agrees setting) →
                hasFlag q.mgmt.flags .lockLostUnder = true
                  ∧ ((patternOf p.tables.cadence.words .alarm).steps ≠ 0 →
                    q.sound.alarm.state ≠ .idle)))))
      ∧ q.junction.queue = p.junction.queue ∧ q.junction.arbiter = p.junction.arbiter
      ∧ q.mgmt.queue = p.mgmt.queue ∧ q.cab = p.cab ∧ q.traction = p.traction ∧ q.stop = p.stop
      ∧ q.slots = p.slots ∧ q.tables = p.tables ∧ q.line = p.line))

/-- The request arbiter (R125): the oldest RELEASE of the queue goes first and does not move the arbiter;
with the queue empty a SET is given for the first REQUESTED record found from the arbiter's position on,
wrapping, its SET sent becomes yes and the arbiter moves to the position after it; with none REQUESTED
nothing is given. -/
def Obligations.ArbiterServesReleasesFirst : Prop :=
  ∀ p : Part,
    (∀ x xs, p.junction.queue = x :: xs →
      nextItem p = ({ p with junction := { p.junction with queue := xs } }, some (releaseWords x)))
    ∧ (p.junction.queue = [] → (∀ pos, isRequested p pos = false) → nextItem p = (p, none))
    ∧ (∀ (k pos : Fin 4) (r : JunctionRecord), p.junction.queue = [] → pos = p.junction.arbiter + k →
        (∀ j : Fin 4, j < k → isRequested p (p.junction.arbiter + j) = false) →
        openAt p pos = some r → r.state = .requested →
        (nextItem p).2 = some (setWords (routeEntry p r.junction) r)
          ∧ (nextItem p).1.junction = { p.junction with
              list := p.junction.list.set pos (some { r with setSent := true })
              arbiter := pos + 1 }
          ∧ (nextItem p).1.caps = p.caps ∧ (nextItem p).1.mgmt = p.mgmt)

/-- Markers. A MARKER store (R106): the counter becomes the last marker counter; with the last one unknown
or the same, and outside ACTIVE and HOLD, nothing else changes; a step of more than one sets MARKER_MISSED
and requests ALARM. The id is looked up in the marker table, the entry of lowest index deciding, and an id
that is 0 or absent or names an undefined junction sets UNKNOWN_MARKER (R105, R107). A REQUEST marker
(R113) has no effect where its junction has a record, sets OVERFLOW at 0 where the list is full, and
otherwise opens a record at the lowest free position, REQUESTED with its row at the unconfirmed cap where
the effective route is defined, else FAULT(NO_ROUTE) with its row at 0. A COMMIT marker (R120) commits a
CONFIRMED record, takes a REQUESTED one or one in another FAULT to FAULT(COMMIT_UNCONFIRMED), sets
STRAY_MARKER with no record, and otherwise has no effect. A CLEAR marker closes the open record of its
junction (R122 to R124): its JUNCTION row is withdrawn and its position freed, and where its SET was sent
its RELEASE joins the queue as the newest, a full queue losing its oldest with RELEASE_LOST. The other
records stand. With no record open it has no effect. -/
def Obligations.MarkersActOnTheirJunction : Prop :=
  ∀ (p : Part) (j : Six),
    (∀ (i : Fin 82) (kind : Kind) (x : SlotRecord),
      let counter := lowByte (wordAt x.payload 1)
      let q : Part := { p with junction := { p.junction with lastMarker := some counter } }
      (p.junction.lastMarker = none ∨ p.junction.lastMarker = some counter ∨ cabLive p = false →
        deliver i .marker kind x p = q)
      ∧ (∀ last, p.junction.lastMarker = some last → counter ≠ last → cabLive p = true →
        deliver i .marker kind x p =
          newMarker ((wordAt x.payload 0).toNat % 4096)
            (if counter = last + 1 then q else request .alarm (setFlag .markerMissed q))))
    ∧ (∀ id : Nat,
      (id = 0 ∨ (∀ m ∈ markerEntries p.tables.marker.words, m.id ≠ id) →
        newMarker id p = setFlag .unknownMarker p)
      ∧ (∀ (k : Nat) (m : MarkerEntry), id ≠ 0 →
        (markerEntries p.tables.marker.words)[k]? = some m → m.id = id →
        (∀ k' m', k' < k → (markerEntries p.tables.marker.words)[k']? = some m' → m'.id ≠ id) →
        newMarker id p =
          if (routeEntry p m.junction).defined = false then setFlag .unknownMarker p
          else
            match m.role with
            | .request => requestMarker m.junction (routeEntry p m.junction) p
            | .commit => commitMarker m.junction p
            | .clear => clearMarker m.junction p))
    ∧ (let e := routeEntry p j
      let code := if p.junction.selection = 0 then e.dflt else p.junction.selection
      let record : JunctionRecord := {
        junction := j
        route := code
        state := if (e.route? code).isSome = true then .requested else .fault .noRoute
        count := 0
        confirmed := 0
        distance := 0
        setSent := false }
      let q := requestMarker j e p
      ((∃ pos r, openAt p pos = some r ∧ r.junction = j) → q = p)
      ∧ ((∀ pos, ∃ r, openAt p pos = some r ∧ r.junction ≠ j) →
        q.junction = p.junction ∧ q.caps = { p.caps with overflow := some 0 } ∧ q.mgmt = p.mgmt
          ∧ alarmLamp q = true
          ∧ (cabActs p = true → (patternOf p.tables.cadence.words .alarm).steps ≠ 0 →
              q.sound.alarm.state ≠ .idle))
      ∧ (∀ pos : Fin 4, openAt p pos = none → (∀ pos', pos' < pos → openAt p pos' ≠ none) →
        (∀ pos' r, openAt p pos' = some r → r.junction ≠ j) →
        q.junction = { p.junction with list := p.junction.list.set pos (some record) }
          ∧ q.caps = { p.caps with
              junctions := p.caps.junctions.set pos
                (some (if (e.route? code).isSome = true then e.unconfirmed else 0)) }
          ∧ q.mgmt = p.mgmt
          ∧ ((e.route? code).isSome = false → cabActs p = true →
              (patternOf p.tables.cadence.words .alarm).steps ≠ 0 → q.sound.alarm.state ≠ .idle)))
    ∧ (let q := commitMarker j p
      ((∀ pos r, openAt p pos = some r → r.junction ≠ j) → q = setFlag .strayMarker p)
      ∧ (∀ (pos : Fin 4) (r : JunctionRecord), openAt p pos = some r → r.junction = j →
        (∀ pos' r', pos' < pos → openAt p pos' = some r' → r'.junction ≠ j) →
        (r.state = .confirmed →
          q.junction = { p.junction with
              list := p.junction.list.set pos
                (some { r with state := .committed, count := 0, distance := 0 }) }
            ∧ q.caps = p.caps ∧ q.mgmt = p.mgmt)
        ∧ (r.state = .committed ∨ r.state = .fault .commitUnconfirmed → q = p)
        ∧ (r.state ≠ .confirmed → r.state ≠ .committed → r.state ≠ .fault .commitUnconfirmed →
          q.junction = { p.junction with
              list := p.junction.list.set pos
                (some { r with
                  state := .fault .commitUnconfirmed
                  count := 0
                  confirmed := 0
                  distance := 0 }) }
            ∧ q.caps = { p.caps with junctions := p.caps.junctions.set pos (some 0) }
            ∧ q.mgmt = p.mgmt
            ∧ (cabActs p = true → (patternOf p.tables.cadence.words .alarm).steps ≠ 0 →
                q.sound.alarm.state ≠ .idle))))
    ∧ (((∀ pos r, openAt p pos = some r → r.junction ≠ j) → clearMarker j p = p)
      ∧ (∀ (pos : Fin 4) (r : JunctionRecord), openAt p pos = some r → r.junction = j →
          (∀ pos' r', pos' < pos → openAt p pos' = some r' → r'.junction ≠ j) →
          (clearMarker j p).caps = { p.caps with junctions := p.caps.junctions.set pos none }
            ∧ openAt (clearMarker j p) pos = none
            ∧ (∀ pos', pos' ≠ pos → openAt (clearMarker j p) pos' = openAt p pos')
            ∧ (r.setSent = false → (clearMarker j p).junction.queue = p.junction.queue
                ∧ (clearMarker j p).mgmt = p.mgmt)
            ∧ (r.setSent = true →
                (p.junction.queue.length < 4 →
                  (clearMarker j p).junction.queue = p.junction.queue ++ [releaseOf p r]
                    ∧ (clearMarker j p).mgmt = p.mgmt)
                ∧ (4 ≤ p.junction.queue.length →
                  (clearMarker j p).junction.queue = p.junction.queue.drop 1 ++ [releaseOf p r]
                    ∧ hasFlag (clearMarker j p).mgmt.flags .releaseLost = true))))

/-! ### Stop unit (chapter 7) -/

/-- The door status. A DOOR_STATUS store (R132 to R138) replaces it and sets or withdraws the DOORS row; in
ACTIVE and HOLD a released zone takes RUNNING to AT_STOP, with the stop request and the pushes cleared, a
door-open request for each pushed zone of zone_mask that is released and closed, and DEPART withdrawn; no zone
released and every zone of zone_mask closed takes AT_STOP to RUNNING, with DEPART requested where
departure_warning is ON; a door-open request stands only where its zone is closed and released, and the
assistance flags advance. In the other states the trip phase, the requests and the flags stand.
DOOR_STATUS_STALE and the test of the DOORS row (R132, R133): with no door status, no enabled entry of its
function, or its record older than door_stale, the DOORS row is 0; where it is not stale the event does not
occur, and the row is present exactly while a zone of zone_mask is not closed or a zone is released. That an
event row acts exactly where the condition of its rule holds in the state is the model's choice
(notes/assumptions/5.md). -/
def Obligations.DoorsRowFollowsDoorStatus : Prop :=
  (∀ (i : Fin 82) (kind : Kind) (x : SlotRecord) (p : Part),
    let q := deliver i .doorStatus kind x p
    let closed := lowByte (wordAt x.payload 0)
    let released := lowByte (wordAt x.payload 1)
    let allShut := ∀ z : Fin 8, (zoneMask p).getLsbD z.val = true → closed.getLsbD z.val = true
    q.stop.door = some { closed := closed, released := released, source := i }
      ∧ (hasFn p .doorStatus = true → (recordAt p i).age ≤ doorStale p →
        (allShut → released = 0 → q.caps.doors = none)
        ∧ (¬ allShut ∨ released ≠ 0 → q.caps.doors = some 0))
      ∧ (cabLive p = false → q.stop = { p.stop with door := q.stop.door } ∧ q.sound = p.sound)
      ∧ (cabLive p = true →
        (∀ z : Fin 8, q.stop.assistance[z] =
          match p.stop.assistance[z] with
          | .clear => .clear
          | .waitingOpen => if closed.getLsbD z.val = true then .waitingOpen else .opened
          | .opened => if closed.getLsbD z.val = true then .clear else .opened)
        ∧ (p.stop.phase = .running → released ≠ 0 →
          q.stop.phase = .atStop ∧ q.stop.request = false ∧ q.stop.push = 0
            ∧ (∀ z : Fin 8, q.stop.doorOpen.getLsbD z.val =
                (closed.getLsbD z.val && released.getLsbD z.val
                  && (p.stop.doorOpen.getLsbD z.val
                    || (p.stop.push.getLsbD z.val && (zoneMask p).getLsbD z.val))))
            ∧ q.sound.depart.state = .idle)
        ∧ (p.stop.phase = .atStop → released = 0 → allShut →
          q.stop.phase = .running ∧ q.stop.request = p.stop.request ∧ q.stop.push = p.stop.push
            ∧ q.stop.doorOpen = 0
            ∧ (departureWarning p = false → q.sound = p.sound)
            ∧ (departureWarning p = true → (patternOf p.tables.cadence.words .depart).steps ≠ 0 →
                q.sound.depart.state ≠ .idle))
        ∧ ((p.stop.phase = .running ∧ released = 0)
            ∨ (p.stop.phase = .atStop ∧ (released ≠ 0 ∨ ¬ allShut)) →
          q.stop.phase = p.stop.phase ∧ q.stop.request = p.stop.request ∧ q.stop.push = p.stop.push
            ∧ (∀ z : Fin 8, q.stop.doorOpen.getLsbD z.val =
                (p.stop.doorOpen.getLsbD z.val && closed.getLsbD z.val && released.getLsbD z.val))
            ∧ q.sound = p.sound))
      ∧ q.stop.lastStop = p.stop.lastStop ∧ q.stop.lastAssist = p.stop.lastAssist
      ∧ q.cab = p.cab ∧ q.traction = p.traction ∧ q.junction = p.junction ∧ q.slots = p.slots
      ∧ q.tables = p.tables ∧ q.mgmt = p.mgmt ∧ q.line = p.line)
  ∧ ∀ s : State,
    ((∀ d, s.part.stop.door = some d →
        hasFn s.part .doorStatus = false ∨ doorStale s.part < (recordAt s.part d.source).age) →
      exec .doorStatusStale s = .next { s with
        part := { s.part with caps := { s.part.caps with doors := some 0 } } })
    ∧ (∀ d, s.part.stop.door = some d → hasFn s.part .doorStatus = true →
        (recordAt s.part d.source).age ≤ doorStale s.part →
        exec .doorStatusStale s = .next s
          ∧ (testDoors s.part).caps.doors =
              (if (∀ z : Fin 8, (zoneMask s.part).getLsbD z.val = true → d.closed.getLsbD z.val = true)
                  ∧ d.released = 0 then none else some 0))

/-- Pushes. A STOP_BUTTON store (R139, R141): the two counters become the last counters of the zone; a
counter that differs from a known last one is a push, acted on in ACTIVE and HOLD for a zone of zone_mask;
an assistance push acts as a stop push, makes the zone's assistance flag WAITING_OPEN and requests ASSIST.
A stop push (R140): in RUNNING, or at a zone not released, it is kept and requests a stop, with the STOP
source where no stop was requested; at a released and closed zone it asks for the door; at a released and
open zone it does nothing. -/
def Obligations.StopPushByPhaseAndZone : Prop :=
  (∀ (i : Fin 82) (kind : Kind) (x : SlotRecord) (p : Part) (z : Fin 8),
    z.val = (wordAt x.payload 0).toNat % 8 →
    let stops := highByte (wordAt x.payload 1)
    let assists := lowByte (wordAt x.payload 1)
    let counted : Part := { p with stop := { p.stop with
      lastStop := p.stop.lastStop.set z (some stops)
      lastAssist := p.stop.lastAssist.set z (some assists) } }
    let acts := cabLive p = true ∧ (zoneMask p).getLsbD z.val = true
    let stopPushed := ∃ last, p.stop.lastStop[z] = some last ∧ last ≠ stops
    let assistPushed := ∃ last, p.stop.lastAssist[z] = some last ∧ last ≠ assists
    (¬ acts ∨ (¬ stopPushed ∧ ¬ assistPushed) → deliver i .stopButton kind x p = counted)
    ∧ (acts → stopPushed → ¬ assistPushed → deliver i .stopButton kind x p = stopPush z counted)
    ∧ (acts → assistPushed →
      let q := stopPush z counted
      deliver i .stopButton kind x p = request .assist { q with
        stop := { q.stop with assistance := q.stop.assistance.set z .waitingOpen } }))
  ∧ ∀ (p : Part) (d : DoorStatus) (z : Fin 8), p.stop.door = some d →
    (p.stop.phase = .running ∨ d.released.getLsbD z.val = false →
      (stopPush z p).stop = { p.stop with push := p.stop.push ||| (1#8 <<< z.val), request := true }
        ∧ stopLamp (stopPush z p) = true
        ∧ (p.stop.request = true → (stopPush z p).sound = p.sound)
        ∧ (p.stop.request = false → cabActs p = true →
            (patternOf p.tables.cadence.words .stop).steps ≠ 0 →
            (stopPush z p).sound.stop.state ≠ .idle))
    ∧ (p.stop.phase = .atStop → d.released.getLsbD z.val = true → d.closed.getLsbD z.val = true →
        stopPush z p =
          { p with stop := { p.stop with doorOpen := p.stop.doorOpen ||| (1#8 <<< z.val) } })
    ∧ (p.stop.phase = .atStop → d.released.getLsbD z.val = true → d.closed.getLsbD z.val = false →
        stopPush z p = p)

/-! ### Sound unit (chapter 8) -/

/-- The recognised lines and the counts of the sound unit. Every line follows the two-sample rule (R44):
LOW_ADH (R89), DEPOT (R171), ACK_BTN in the junction unit, whose recognised press withdraws OVERFLOW in ACTIVE
and HOLD (R110, R114), and the three buttons of the sound unit. A press of BELL_BTN in ACTIVE requests
DRIVER_BELL, or clears its release mark; a release withdraws it from WAITING and marks it while PLAYING
(R158). A press of HORN_BTN in ACTIVATING, ACTIVE and HOLD turns an OFF horn ON, a release turns a STUCK one
OFF (R163). A press of ACK_BTN stops ALARM, and a ready source takes the channel (R160). A cycle start (R153)
samples the buttons, counts both channels, then the horn. A PLAYING source's phase count goes down by one,
except for a step begun at it; where it reaches 0, an ON phase gives way to the OFF phase of the step's off
count, as PHASE_END does, or the step ends (StepEndAdvancesTheChannel). A horn that was ON before counts, that
it stays at 3000 being an inference (notes/assumptions/26.md), and is cut at horn_max with the button held,
STUCK with HORN_STUCK, or OFF at horn_min with it released, as HORN_STUCK and HORN_MIN_REACHED do (R163). The
DEPARTURE row follows DEPART (R159). Nothing else changes; where an event's condition does not hold it does
not occur. That an event row acts exactly where the condition of its rule holds in the state is the model's
choice (notes/assumptions/5.md). That a step begun at a cycle start is not counted at it is an inference
(notes/assumptions/16.md). -/
def Obligations.RecognisedLinesAndCountedSoundsAct : Prop :=
  (∀ (r : Recogniser Bool) (level : Bool), sampled r level =
    { value := if r.prev = some level then level else r.value, prev := some level })
  ∧ (∀ s : State,
    let p := s.part
    sampleLowAdh p = { p with
      traction := { p.traction with lowAdh := sampled p.traction.lowAdh p.lines.lowAdh } }
    ∧ (let q : Part := { p with
        tables := { p.tables with depot := sampled p.tables.depot p.lines.depot } }
      exec .transferCompletion { s with part := q } = .next { s with part := tableStoreCycle p })
    ∧ (let q : Part := { p with
        junction := { p.junction with ackBtn := sampled p.junction.ackBtn p.lines.ackBtn } }
      let pressed := p.lines.ackBtn = true ∧ p.junction.ackBtn.prev = some true
        ∧ p.junction.ackBtn.value = false
      (pressed → cabLive p = true →
        sampleJunctionAck p = { q with
          caps := { p.caps with overflow := none }
          sound := { p.sound with
            overflow := if p.caps.overflow = none then p.sound.overflow else false } })
      ∧ (¬ pressed ∨ cabLive p = false → sampleJunctionAck p = q))
    ∧ (let cadence := p.tables.cadence.words
      let bell := sampleBell cadence (p.cab.state == .active) (cabActs p) p.lines.bellBtn p.sound
      let buttons := sampleAck cadence p.lines.ackBtn (sampleHorn (cabActs p) p.lines.hornBtn bell)
      soundCycle p = countHorn (p.sound.horn == .on)
        (withSound (countChannel cadence .chime (countChannel cadence .bell buttons)) p)))
  ∧ (∀ (cadence : List Word) (active acts level : Bool) (snd : Sound),
    let q : Sound := { snd with bellBtn := sampled snd.bellBtn level }
    let recognised := snd.bellBtn.prev = some level ∧ snd.bellBtn.value ≠ level
    (¬ recognised → sampleBell cadence active acts level snd = q)
    ∧ (recognised → level = true →
      (active = false → sampleBell cadence active acts level snd = q)
      ∧ (active = true → snd.driverBell.state = .playing →
        sampleBell cadence active acts level snd =
          { q with driverBell := { snd.driverBell with releaseMark := false } })
      ∧ (active = true → snd.driverBell.state ≠ .playing →
        sampleBell cadence active acts level snd = requestSource cadence acts .driverBell q
        ∧ (snd.driverBell.state ≠ .idle → sampleBell cadence active acts level snd = q)
        ∧ (snd.driverBell.state = .idle → acts = true → (patternOf cadence .driverBell).steps ≠ 0 →
          (sampleBell cadence active acts level snd).driverBell.pattern = patternOf cadence .driverBell
          ∧ (snd.depart.state = .playing →
            (sampleBell cadence active acts level snd).driverBell.state = .waiting)
          ∧ (snd.depart.state ≠ .playing →
            playing (sampleBell cadence active acts level snd) .bell = some .driverBell))))
    ∧ (recognised → level = false →
      (snd.driverBell.state = .idle → sampleBell cadence active acts level snd = q)
      ∧ (snd.driverBell.state = .waiting →
        sampleBell cadence active acts level snd = { q with driverBell := SoundSource.idle })
      ∧ (snd.driverBell.state = .playing →
        sampleBell cadence active acts level snd =
          { q with driverBell := { snd.driverBell with releaseMark := true } })))
  ∧ (∀ (acts level : Bool) (snd : Sound),
    let q : Sound := { snd with hornBtn := sampled snd.hornBtn level }
    let recognised := snd.hornBtn.prev = some level ∧ snd.hornBtn.value ≠ level
    (¬ recognised ∨ acts = false → sampleHorn acts level snd = q)
    ∧ (recognised → acts = true →
      sampleHorn acts level snd =
        if snd.horn = .off ∧ level = true then { q with horn := .on, hornCount := 0 }
        else if snd.horn = .stuck ∧ level = false then { q with horn := .off }
        else q))
  ∧ (∀ (cadence : List Word) (level : Bool) (snd : Sound),
    let q : Sound := { snd with ackBtn := sampled snd.ackBtn level }
    let pressed := level = true ∧ snd.ackBtn.prev = some true ∧ snd.ackBtn.value = false
    (¬ pressed ∨ snd.alarm.state = .idle → sampleAck cadence level snd = q)
    ∧ (pressed → snd.alarm.state = .waiting →
      sampleAck cadence level snd = { q with alarm := SoundSource.idle })
    ∧ (pressed → snd.alarm.state = .playing → ChannelsOk snd →
      (sampleAck cadence level snd).alarm = SoundSource.idle
      ∧ (∀ y, y = .assist ∨ y = .stop → isReady snd y = true →
        (getSource snd y).pattern.steps ≠ 0 → (y = .stop → isReady snd .assist = false) →
          playing (sampleAck cadence level snd) .chime = some y)
      ∧ sampleAck cadence level snd = { q with
        alarm := (sampleAck cadence level snd).alarm
        assist := (sampleAck cadence level snd).assist
        stop := (sampleAck cadence level snd).stop }))
  ∧ (∀ (snd : Sound) (p : Part), withSound snd p = { p with
      sound := snd
      caps := { p.caps with
        departure := if (p.sound.depart.state = .idle ↔ snd.depart.state = .idle) then p.caps.departure
          else if snd.depart.state = .idle then none else some 0 } })
  ∧ (∀ (wasOn : Bool) (p : Part),
    let count := min 3000 (p.sound.hornCount + 1)
    let counted : Part := { p with sound := { p.sound with hornCount := count } }
    (p.sound.horn ≠ .on ∨ wasOn = false → countHorn wasOn p = p)
    ∧ (p.sound.horn = .on → wasOn = true →
      (p.sound.hornBtn.value = true → hornMax p ≤ count →
        countHorn wasOn p = setFlag .hornStuck { counted with
          sound := { counted.sound with horn := .stuck } })
      ∧ (p.sound.hornBtn.value = false → hornMin p ≤ count →
        countHorn wasOn p = { counted with sound := { counted.sound with horn := .off } })
      ∧ ((p.sound.hornBtn.value = true → count < hornMax p) →
        (p.sound.hornBtn.value = false → count < hornMin p) → countHorn wasOn p = counted)))
  ∧ ∀ s : State,
    (∀ (ch : Channel) (x : Source), playing s.part.sound ch = some x →
      (getSource s.part.sound x).phaseCount = 0 → (getSource s.part.sound x).phaseOn = true →
      0 < (getSource s.part.sound x).offCount →
      exec (.phaseEnd ch) s = .next { s with
        part := { s.part with
          sound := putSource s.part.sound x { (getSource s.part.sound x) with
            phaseOn := false
            phaseCount := (getSource s.part.sound x).offCount } } })
    ∧ (∀ ch : Channel,
      (∀ x, playing s.part.sound ch = some x → (getSource s.part.sound x).phaseCount ≠ 0) →
      exec (.phaseEnd ch) s = .next s ∧ exec (.stepEnd ch) s = .next s)
    ∧ (∀ (ch : Channel) (cadence : List Word), playing s.part.sound ch = none →
      countChannel cadence ch s.part.sound = s.part.sound)
    ∧ (∀ (ch : Channel) (x : Source) (cadence : List Word), playing s.part.sound ch = some x →
      ((getSource s.part.sound x).begun = true →
        countChannel cadence ch s.part.sound = s.part.sound)
      ∧ ((getSource s.part.sound x).begun = false → 1 < (getSource s.part.sound x).phaseCount →
        countChannel cadence ch s.part.sound =
          putSource s.part.sound x { (getSource s.part.sound x) with
            phaseCount := (getSource s.part.sound x).phaseCount - 1 })
      ∧ ((getSource s.part.sound x).begun = false → (getSource s.part.sound x).phaseCount ≤ 1 →
        (getSource s.part.sound x).phaseOn = true → 0 < (getSource s.part.sound x).offCount →
        countChannel cadence ch s.part.sound =
          putSource s.part.sound x { (getSource s.part.sound x) with
            phaseOn := false
            phaseCount := (getSource s.part.sound x).offCount }))
    ∧ (s.part.sound.horn = .on → s.part.sound.hornBtn.value = false →
      (hornMin s.part ≤ s.part.sound.hornCount →
        exec .hornMinReached s = .next { s with
          part := { s.part with sound := { s.part.sound with horn := .off } } })
      ∧ (s.part.sound.hornCount < hornMin s.part → exec .hornMinReached s = .next s)
      ∧ exec .hornStuck s = .next s)
    ∧ (s.part.sound.horn = .on → s.part.sound.hornBtn.value = true →
      (hornMax s.part ≤ s.part.sound.hornCount →
        exec .hornStuck s = .next { s with
          part := setFlag .hornStuck { s.part with
            sound := { s.part.sound with horn := .stuck } } })
      ∧ (s.part.sound.hornCount < hornMax s.part → exec .hornStuck s = .next s)
      ∧ exec .hornMinReached s = .next s)

/-- A cycle start at which the phase count of a PLAYING source reaches 0, in its OFF phase or in an ON phase
with off count 0, ends the step, as STEP_END does (R153). STEP_END (R149, R153 to R155, R157 to R159) of the
PLAYING source of a channel whose step is over, in a state that keeps the channels' invariant
(StepKeepsTheSoundChannels). The source goes to the next step of the pass, or to the first of a new pass: with
repeat count 0, with passes left, whose count goes down by one, or for DRIVER_BELL while it is held. With no
ready source of higher priority that can play it begins that step; under one it is SUSPENDED there, and the
highest of them begins the step at its offset. With its last pass done, or DRIVER_BELL marked released, it
completes: IDLE, and the first ready source of the channel that can play, in order of priority, begins. A
ready source with an empty pattern that would begin before the one that does completes instead (R157). Every
other source stands. DEPARTURE is withdrawn where DEPART goes to IDLE, and every other row stands. That an
event row acts exactly where the condition of its rule holds in the state is the model's choice
(notes/assumptions/5.md). -/
def Obligations.StepEndAdvancesTheChannel : Prop :=
  (∀ (s : State) (ch : Channel) (x : Source), playing s.part.sound ch = some x →
    (getSource s.part.sound x).begun = false → (getSource s.part.sound x).phaseCount ≤ 1 →
    (getSource s.part.sound x).phaseOn = false ∨ (getSource s.part.sound x).offCount = 0 →
      let counted : Part := { s.part with
        sound := putSource s.part.sound x { (getSource s.part.sound x) with phaseCount := 0 } }
      exec (.stepEnd ch) { s with part := counted } =
        .next { s with
          part := withSound (countChannel s.part.tables.cadence.words ch s.part.sound) s.part })
  ∧ ∀ (s : State) (ch : Channel) (x : Source), ChannelsOk s.part.sound →
    playing s.part.sound ch = some x → stepIsOver (getSource s.part.sound x) = true →
    let snd := s.part.sound
    let words := s.part.tables.cadence.words
    let src := getSource snd x
    (∀ src' : SoundSource,
      ((x = .driverBell → src.releaseMark = false) ∧ src.offset + 1 < src.pattern.steps
          ∧ src' = { src with offset := src.offset + 1 })
        ∨ (src.pattern.steps ≤ src.offset + 1 ∧ src' = { src with offset := 0 }
          ∧ ((x = .driverBell ∧ src.releaseMark = false)
            ∨ (x ≠ .driverBell ∧ src.pattern.repeats = 0)))
        ∨ (x ≠ .driverBell ∧ src.pattern.steps ≤ src.offset + 1 ∧ src.pattern.repeats ≠ 0
          ∧ 1 < src.passesLeft ∧ src' = { src with offset := 0, passesLeft := src.passesLeft - 1 }) →
      ((∀ y ∈ higherThan x, ¬ CanPlay snd y) →
        ∃ p : Part, exec (.stepEnd ch) s = .next { s with part := p }
          ∧ BeganStep words src' (getSource p.sound x)
          ∧ (∀ y, y ≠ x →
              (y ∈ higherThan x → CompletesAtOnce snd y → getSource p.sound y = SoundSource.idle)
              ∧ (¬ (y ∈ higherThan x ∧ CompletesAtOnce snd y) →
                getSource p.sound y = getSource snd y))
          ∧ SourcesAloneDiffer snd p.sound ∧ p = { s.part with sound := p.sound })
      ∧ (∀ y ∈ higherThan x, CanPlay snd y → (∀ z ∈ higherThan y, ¬ CanPlay snd z) →
        ∃ p : Part, exec (.stepEnd ch) s = .next { s with part := p }
          ∧ getSource p.sound x = { src' with state := .suspended }
          ∧ BeganStep words (getSource snd y) (getSource p.sound y) ∧ playing p.sound ch = some y
          ∧ (∀ z, z ≠ x → z ≠ y →
              (z ∈ higherThan y → CompletesAtOnce snd z → getSource p.sound z = SoundSource.idle)
              ∧ (¬ (z ∈ higherThan y ∧ CompletesAtOnce snd z) →
                getSource p.sound z = getSource snd z))
          ∧ SourcesAloneDiffer snd p.sound ∧ p = { s.part with sound := p.sound }))
    ∧ ((x = .driverBell ∧ src.releaseMark = true)
        ∨ (x ≠ .driverBell ∧ src.pattern.steps ≤ src.offset + 1 ∧ src.pattern.repeats ≠ 0
          ∧ src.passesLeft ≤ 1) →
      ∃ p : Part, exec (.stepEnd ch) s = .next { s with part := p }
        ∧ getSource p.sound x = SoundSource.idle
        ∧ (∀ y, channelOf y = ch → CanPlay snd y → (∀ z ∈ higherThan y, ¬ CanPlay snd z) →
            playing p.sound ch = some y ∧ BeganStep words (getSource snd y) (getSource p.sound y)
            ∧ (∀ z, z ≠ x → z ≠ y →
                (z ∈ higherThan y → CompletesAtOnce snd z → getSource p.sound z = SoundSource.idle)
                ∧ (¬ (z ∈ higherThan y ∧ CompletesAtOnce snd z) →
                  getSource p.sound z = getSource snd z)))
        ∧ ((∀ y, channelOf y = ch → ¬ CanPlay snd y) →
            playing p.sound ch = none
            ∧ (∀ z, z ≠ x →
                (channelOf z = ch → CompletesAtOnce snd z → getSource p.sound z = SoundSource.idle)
                ∧ (¬ (channelOf z = ch ∧ CompletesAtOnce snd z) →
                  getSource p.sound z = getSource snd z)))
        ∧ SourcesAloneDiffer snd p.sound
        ∧ p = { s.part with
            sound := p.sound
            caps := { s.part.caps with
              departure :=
                if p.sound.depart.state = .idle ∧ snd.depart.state ≠ .idle then none
                else s.part.caps.departure } })

/-! ### Tables and management (chapters 9 and 10) -/

/-- TRANSFER_COMPLETION (R168, R170, R177): the transfer in the back completes, at the command itself, by the
model's choice (notes/assumptions/7.md). Where a gate fails no table, row, record or flag changes and the answer
carries the refusal (R73). Otherwise the entry takes the image, the reference sum is recomputed, the FAULTY mark
is clear, the answer is OK, and an activation that has checked the table fails (R52,
FailedActivationReturnsToInactive). A SLOT entry's record is cleared (R35). For PARAM the LINE row takes the new
line_cap (R73), the envelope's validity mark is recomputed (R91), and the DOORS row is tested (R133, R146): it is
absent exactly where there is a door status of an enabled function, its record is at most the new door_stale old,
and it shows every zone of the new zone_mask closed and no zone released. No other row changes; that a SLOT
transfer does not test the DOORS row, which R133 also has stand as its condition requires at every moment, is
the model's choice (notes/assumptions/37.md). BUSY becomes FREE; in PENDING the images are exchanged and the
pending transfer is outstanding in the back. -/
def Obligations.TransferCompletes : Prop :=
  ∀ s : State,
    (outstanding s.part.tables = none → exec .transferCompletion s = .next s)
    ∧ (∀ x : Transfer, outstanding s.part.tables = some x → s.part.mgmt.queue.length < 4 →
      ∃ p : Part, exec .transferCompletion s = .next { s with part := p }
        ∧ (∀ back, s.part.tables.staging = .busy back →
            p.tables.staging = .free ∧ p.tables.front = s.part.tables.front
              ∧ p.tables.back = s.part.tables.back)
        ∧ (∀ back next, s.part.tables.staging = .pending back next →
            p.tables.staging = .busy next ∧ p.tables.front = s.part.tables.back
              ∧ p.tables.back = s.part.tables.front)
        ∧ (∀ t, t ≠ x.table → tableAt p.tables t = tableAt s.part.tables t)
        ∧ (∀ result, writeGate x.table x.index s.part = some result →
            tableAt p.tables x.table = tableAt s.part.tables x.table
              ∧ p.tables.envelopeValid = s.part.tables.envelopeValid
              ∧ p.caps = s.part.caps ∧ p.cab = s.part.cab ∧ p.traction = s.part.traction
              ∧ p.sound = s.part.sound ∧ p.slots = s.part.slots
              ∧ p.mgmt.flags = s.part.mgmt.flags
              ∧ p.mgmt.queue = s.part.mgmt.queue ++
                [{ node := s.part.node, code := 4, tag := x.tag, result := result,
                   data := [0, 0, 0, 0, 0] }])
        ∧ (writeGate x.table x.index s.part = none →
            (tableAt p.tables x.table).words =
                overwrite (tableAt s.part.tables x.table).words (entryStart x.table x.index)
                  (s.part.tables.back.take (entrySize x.table x.index))
              ∧ (tableAt p.tables x.table).ref = tableSum (tableAt p.tables x.table).words
              ∧ (tableAt p.tables x.table).faulty = false
              ∧ (tableAt p.tables x.table).lock = .unlocked
              ∧ p.mgmt.queue = s.part.mgmt.queue ++
                [{ node := s.part.node, code := 4, tag := x.tag, result := .ok,
                   data := [0, 0, 0, 0, 0] }]
              ∧ (x.table = .slot →
                  (∀ i : Fin 82, i.val = x.index → recordAt p i = SlotRecord.cleared)
                  ∧ (∀ i : Fin 82, i.val ≠ x.index → recordAt p i = recordAt s.part i))
              ∧ (x.table = .param → p.caps.line = lineCap p
                  ∧ (p.caps.doors = none ∨ p.caps.doors = some 0)
                  ∧ (p.caps.doors = none ↔ ∃ d, p.stop.door = some d
                      ∧ hasFn p .doorStatus = true ∧ (recordAt p d.source).age ≤ doorStale p
                      ∧ (∀ z : Fin 8, (zoneMask p).getLsbD z.val = true →
                          d.closed.getLsbD z.val = true)
                      ∧ d.released = 0)
                  ∧ p.caps = { (tableChanged .param s.part).caps with
                      line := p.caps.line
                      doors := p.caps.doors })
              ∧ (x.table ≠ .param → p.caps = (tableChanged x.table s.part).caps)
              ∧ (x.table = .param ∨ x.table = .envelope →
                  (p.tables.envelopeValid = true ↔ EnvelopeInOrder p))
              ∧ (x.table ≠ .param → x.table ≠ .envelope →
                  p.tables.envelopeValid = s.part.tables.envelopeValid)
              ∧ p.cab = (tableChanged x.table s.part).cab
              ∧ p.traction = (tableChanged x.table s.part).traction
              ∧ p.sound = (tableChanged x.table s.part).sound
              ∧ p.mgmt.flags = (tableChanged x.table s.part).mgmt.flags)
        ∧ (x.table ≠ .slot → p.slots = s.part.slots)
        ∧ (s.part.cab.state ≠ .activating → p.cab = s.part.cab ∧ p.traction = s.part.traction
            ∧ p.sound = s.part.sound ∧ (x.table ≠ .param → p.caps = s.part.caps))
        ∧ p.tables.armed = s.part.tables.armed ∧ p.tables.depot = s.part.tables.depot
        ∧ p.tables.pointer = s.part.tables.pointer ∧ p.tables.field = s.part.tables.field
        ∧ p.tables.held = s.part.tables.held
        ∧ p.line = s.part.line ∧ p.junction = s.part.junction ∧ p.stop = s.part.stop)

/-- WRITE_STAGE and TRANSFER at their acceptance (R174, R176). WRITE_STAGE writes its words into the front
unless a transfer is pending or its count or offset is out of range; that BUSY comes before RANGE is an
inference (notes/assumptions/25.md). TRANSFER is refused by the first gate
that fails, in this order: the table and the index, the lock, the cab state or the motion, an open record
of the junction, the image. Passing them it goes to the back in FREE, is held pending in BUSY, and is
refused with OVERRUN in PENDING. -/
def Obligations.StagingTakesWordsAndTransfers : Prop :=
  ∀ (s : State) (tag : Byte), Takes tag s.part →
    (∀ (offset count : Byte) (words : List Word),
      exec (.writeStage tag offset count words) s = .next { s with
        part :=
          match s.part.tables.staging with
          | .pending _ _ => respond tag 3 .busy [] s.part
          | .free | .busy _ =>
            if 1 ≤ count.toNat ∧ count.toNat ≤ 5 ∧ offset.toNat + count.toNat ≤ 24 then
              respond tag 3 .ok [] { s.part with
                tables := { s.part.tables with
                  front := overwrite s.part.tables.front offset.toNat (padTo count.toNat words) } }
            else respond tag 3 .range [] s.part })
    ∧ (∀ (table index : Word),
      (tableOf table = none ∨ tableOf table = some .envelope →
        exec (.transfer tag table index) s = .next { s with part := respond tag 4 .range [] s.part })
      ∧ (∀ t, tableOf table = some t → t ≠ .envelope →
        transferGate t index.toNat s.part =
          (if entryCount t ≤ index.toNat then some .range
          else if (tableAt s.part.tables t).lock ≠ .unlocked then some .locked
          else if t = .slot ∧ s.part.cab.state ≠ .inactive then some .unsafeState
          else if t ≠ .slot ∧ (s.part.cab.state = .active ∨ s.part.cab.state = .hold)
              ∧ s.part.traction.demand.v ≠ 0 then some .unsafeState
          else if t = .route
              ∧ ∃ pos r, openAt s.part pos = some r ∧ r.junction.toNat = index.toNat then some .inUse
          else if imageInRange t index.toNat
              (s.part.tables.front.take (entrySize t index.toNat)) = true then none
          else some .range)
        ∧ (∀ result, transferGate t index.toNat s.part = some result →
          exec (.transfer tag table index) s =
            .next { s with part := respond tag 4 result [] s.part })
        ∧ (transferGate t index.toNat s.part = none →
          exec (.transfer tag table index) s = .next { s with
            part :=
              match s.part.tables.staging with
              | .free => { s.part with
                  tables := { s.part.tables with
                    front := s.part.tables.back
                    back := s.part.tables.front
                    staging := .busy { table := t, index := index.toNat, tag := tag } } }
              | .busy back => { s.part with
                  tables := { s.part.tables with
                    staging := .pending back { table := t, index := index.toNat, tag := tag } } }
              | .pending _ _ => respond tag 4 .overrun [] s.part })))

/-- STATUS, READ_ENTRY and READ_RECORD answer and change nothing else, but for the NEW and LOST flags of
the record read (R35, R185, R187, R188): pages 0 to 3, up to five words of an entry from the offset on,
and a record's flags and outcomes with its page of words; other arguments are answered RANGE. That page 1
of STATUS shows index 0 with no transfer outstanding is an inference (notes/assumptions/24.md). -/
def Obligations.ReadingCommandsAnswer : Prop :=
  ∀ (s : State) (tag : Byte), Takes tag s.part →
    (∀ page : Word, exec (.status tag page) s = .next { s with
      part :=
        if page = 0 then
          respond tag 1 .ok
            [word (cabStateCode s.part.cab.state * 4096 + pendingCode s.part.cab.pending * 256
                + stageCode s.part.cab.stage * 16 + tableField s.part.cab.table),
             word (lineStateCode s.part.line.state * 256 + bit (lineLost s.part) * 16
                + (2 * bit s.part.line.laneA.up + bit s.part.line.laneB.up)),
             s.part.mgmt.flags.extractLsb' 0 16,
             s.part.mgmt.flags.extractLsb' 16 16 &&& 0x03FF,
             word (causeCode s.part.cab.fault.cause * 256 + stageCode s.part.cab.fault.stage * 16
                + tableField s.part.cab.fault.table)] s.part
        else if page = 1 then
          respond tag 1 .ok
            [word (permittedSpeed s.part),
             word (rowCode (capSource s.part) * 256 + openCount s.part * 16
                + s.part.junction.queue.length),
             signedWord s.part.traction.demand.d,
             word (stagingCode s.part.tables.staging * 256
                + tableField ((outstanding s.part.tables).map fun x => x.table)),
             word (((outstanding s.part.tables).map fun x => x.index).getD 0)] s.part
        else if page = 2 then
          respond tag 1 .ok
            [word (lockCode s.part.tables.slot.lock + lockCode s.part.tables.param.lock * 4
                + lockCode s.part.tables.envelope.lock * 16 + lockCode s.part.tables.cadence.lock * 64
                + lockCode s.part.tables.marker.lock * 256 + lockCode s.part.tables.route.lock * 1024),
             word (bit s.part.tables.slot.faulty + bit s.part.tables.param.faulty * 2
                + bit s.part.tables.envelope.faulty * 4 + bit s.part.tables.cadence.faulty * 8
                + bit s.part.tables.marker.faulty * 16 + bit s.part.tables.route.faulty * 32
                + bit s.part.tables.armed * 256 + bit s.part.tables.depot.value * 512
                + bit s.part.tables.envelopeValid * 1024),
             word (s.part.tables.pointer.val * 256 + fieldCode s.part.tables.field * 16
                + s.part.tables.held.length),
             0, 0] s.part
        else if page = 3 then
          respond tag 1 .ok
            [word s.part.line.laneA.errors, word s.part.line.laneB.errors,
             word s.part.line.counter.toNat, word s.part.mgmt.queue.length, 0] s.part
        else respond tag 1 .range [] s.part })
    ∧ (∀ table index offset : Word, exec (.readEntry tag table index offset) s = .next { s with
        part :=
          match tableOf table with
          | none => respond tag 5 .range [] s.part
          | some t =>
            if index.toNat < entryCount t ∧ offset.toNat < entrySize t index.toNat then
              respond tag 5 .ok
                ((((tableAt s.part.tables t).words.drop (entryStart t index.toNat)).take
                  (entrySize t index.toNat)).drop offset.toNat |>.take 5) s.part
            else respond tag 5 .range [] s.part })
    ∧ (∀ (index page : Word) (i : Fin 82), i.val = index.toNat →
        (∀ data,
            (page = 0 ∧ data = padTo 4 (recordAt s.part i).payload
              ∨ page = 1 ∧ data = padTo 4 ((recordAt s.part i).payload.drop 4)
              ∨ page = 2 ∧ data = [word (recordAt s.part i).length,
                  word (originCode (recordAt s.part i).origin),
                  word (recordAt s.part i).cycle.toNat, word (recordAt s.part i).age]) →
          exec (.readRecord tag index page) s = .next { s with
            part := respond tag 13 .ok
              (word (bit (recordAt s.part i).new + bit (recordAt s.part i).lost * 2
                + bit (recordAt s.part i).lenMismatch * 4 + bit (recordAt s.part i).laneDisagree * 8
                + bit (recordAt s.part i).collision * 16
                + outcomeCode (recordAt s.part i).outcomeA * 256
                + outcomeCode (recordAt s.part i).outcomeB * 1024) :: data)
              (putRecord i { (recordAt s.part i) with new := false, lost := false } s.part) })
        ∧ (2 < page.toNat →
          exec (.readRecord tag index page) s =
            .next { s with part := respond tag 13 .range [] s.part }))
    ∧ (∀ index page : Word, 81 < index.toNat →
        exec (.readRecord tag index page) s =
          .next { s with part := respond tag 13 .range [] s.part })

/-- ENVELOPE_POINTER and ENVELOPE_DATA (R174, R178, R179): the pointer moves to field s of a breakpoint
from 0 to 15 and the held values are discarded. Data is refused by the lock and the motion gate, and for a
count or a value out of range, in that order, which is an inference (notes/assumptions/25.md); in range
the values are taken in order, one by one: an s and a T are held, and a B commits the breakpoint with the
two held values, recomputes the validity mark (R91), presents the change to an activation (R52), and moves the
pointer to the next. -/
def Obligations.EnvelopeIsLoadedByTriples : Prop :=
  ∀ (s : State) (tag : Byte), Takes tag s.part →
    (∀ k : Word,
      (16 ≤ k.toNat → exec (.envelopePointer tag k) s =
        .next { s with part := respond tag 6 .range [] s.part })
      ∧ (∀ i : Fin 16, i.val = k.toNat → exec (.envelopePointer tag k) s = .next { s with
          part := respond tag 6 .ok [] { s.part with
            tables := { s.part.tables with pointer := i, field := .s, held := [] } } }))
    ∧ (∀ (count : Word) (values : List Word),
      (∀ result, writeGate .envelope 0 s.part = some result →
        exec (.envelopeData tag count values) s =
          .next { s with part := respond tag 7 result [] s.part })
      ∧ (writeGate .envelope 0 s.part = none →
        (count.toNat < 1 ∨ 5 < count.toNat ∨ (∃ v ∈ padTo count.toNat values, 1000 < v.toNat) →
          exec (.envelopeData tag count values) s =
            .next { s with part := respond tag 7 .range [] s.part })
        ∧ (1 ≤ count.toNat → count.toNat ≤ 5 → (∀ v ∈ padTo count.toNat values, v.toNat ≤ 1000) →
          exec (.envelopeData tag count values) s = .next { s with
            part := respond tag 7 .ok []
              ((padTo count.toNat values).foldl (fun q v => takeValue v q) s.part) })
        ∧ (∀ v rest, values = v :: rest → count = 1 → v.toNat ≤ 1000 →
          (s.part.tables.field = .s → exec (.envelopeData tag count values) s = .next { s with
            part := respond tag 7 .ok [] { s.part with
              tables := { s.part.tables with field := .t, held := [v] } } })
          ∧ (s.part.tables.field = .t → exec (.envelopeData tag count values) s = .next { s with
            part := respond tag 7 .ok [] { s.part with
              tables := { s.part.tables with
                field := .b
                held := [wordAt s.part.tables.held 0, v] } } })
          ∧ (s.part.tables.field = .b → ∃ p : Part,
              exec (.envelopeData tag count values) s =
                .next { s with part := respond tag 7 .ok [] p }
              ∧ p.tables.envelope.words = overwrite s.part.tables.envelope.words
                  (3 * s.part.tables.pointer.val)
                  [wordAt s.part.tables.held 0, wordAt s.part.tables.held 1, v]
              ∧ p.tables.envelope.ref = tableSum p.tables.envelope.words
              ∧ p.tables.envelope.faulty = false
              ∧ (p.tables.envelopeValid = true ↔ EnvelopeInOrder p)
              ∧ p.tables.pointer = s.part.tables.pointer + 1 ∧ p.tables.field = .s
              ∧ p.tables.held = []
              ∧ (∀ t, t ≠ .envelope → tableAt p.tables t = tableAt s.part.tables t)
              ∧ p.cab = (tableChanged .envelope s.part).cab
              ∧ p.mgmt.flags = (tableChanged .envelope s.part).mgmt.flags
              ∧ (s.part.cab.state ≠ .activating →
                  p = { s.part with tables := p.tables })))))

/-- LOCK_SETUP, LOCK, UNLOCK and LOCK_DOWN (R172, R173): the setup arms the sequence; a lock command taken
makes it IDLE and acts on the table its argument names by the table of R173, an UNLOCK being refused with
LOCKED at LOCKED_DOWN with DEPOT deasserted, and then with UNSAFE in ACTIVE and HOLD with v_eff above 0 or
D other than 0. That an UNLOCK in HOLD with v_eff 0 and D 0 at the latest evaluation is taken, which R173
also says is always refused there, is the model's choice (notes/assumptions/35.md). -/
def Obligations.LocksFollowTheirTable : Prop :=
  ∀ (s : State) (tag : Byte),
    (Takes tag s.part → exec (.lockSetup tag) s = .next { s with
      part := respond tag 8 .ok [] { s.part with tables := { s.part.tables with armed := true } } })
    ∧ (TakesLock tag s.part → ∀ table : Word,
      (tableOf table = none →
        exec (.lock tag table) s = .next { s with part := respond tag 9 .range [] (disarm s.part) }
        ∧ exec (.unlock tag table) s =
            .next { s with part := respond tag 10 .range [] (disarm s.part) }
        ∧ exec (.lockDown tag table) s =
            .next { s with part := respond tag 11 .range [] (disarm s.part) })
      ∧ (∀ t, tableOf table = some t →
        exec (.lockDown tag table) s =
            .next { s with part := respond tag 11 .ok [] (withLock t .lockedDown (disarm s.part)) }
        ∧ exec (.lock tag table) s = .next { s with
            part :=
              if (tableAt s.part.tables t).lock = .lockedDown then
                respond tag 9 .locked [] (disarm s.part)
              else respond tag 9 .ok [] (withLock t .locked (disarm s.part)) }
        ∧ exec (.unlock tag table) s = .next { s with
            part :=
              if (tableAt s.part.tables t).lock = .lockedDown ∧ s.part.tables.depot.value = false then
                respond tag 10 .locked [] (disarm s.part)
              else if (tableAt s.part.tables t).lock ≠ .unlocked
                  ∧ (s.part.cab.state = .active ∨ s.part.cab.state = .hold)
                  ∧ (s.part.traction.demand.v ≠ 0 ∨ s.part.traction.demand.d ≠ 0) then
                respond tag 10 .unsafeState [] (disarm s.part)
              else respond tag 10 .ok [] (withLock t .unlocked (disarm s.part)) }))

/-- SET_RESTRICTION (R68, R74): the RESTRICT row is set at a value up to 1000, or withdrawn, in every cab
state; another action or value is answered RANGE. The row is kept by every event and command but
SET_RESTRICTION, a RESTART and power-on reset (R75), among them every cell that arrives, but for a cell in
a slot of function MGMT_IN, which can carry one of them: so a beacon's cycle start and its changes of cab
state keep it. -/
def Obligations.RestrictionStandsUntilItIsChanged : Prop :=
  (∀ (s : State) (tag : Byte) (action value : Word), Takes tag s.part →
    exec (.setRestriction tag action value) s = .next { s with
      part :=
        if action = 1 ∧ value.toNat ≤ 1000 then
          respond tag 12 .ok [] { s.part with
            caps := { s.part.caps with restrict := some value.toNat } }
        else if action = 2 then
          respond tag 12 .ok [] { s.part with caps := { s.part.caps with restrict := none } }
        else respond tag 12 .range [] s.part })
  ∧ (∀ (c : Instr) (s t : State), (∀ lines, c ≠ .powerOnReset lines) →
    (∀ lane words lines order, c = .cellArrival lane words lines order →
      (beaconCycle words).isSome = true
        ∨ ∀ g, s.part.slots.governing = some g → g.entry.fn ≠ .mgmtIn) →
    (∀ tag action value, c ≠ .setRestriction tag action value) →
    (∀ tag lines, c ≠ .restart tag lines) → exec c s = .next t →
      t.part.caps.restrict = s.part.caps.restrict)

/-- STABLE and WAKE (R63, R65): STABLE makes an INACTIVE cab STABLED, with pending exit NONE, scrub count 0
and the drive request clear, is answered BUSY with a transfer outstanding and UNSAFE in any other state.
WAKE in STABLED is taken at once where no scrub pass runs, waits where one runs, and elsewhere is answered
OK with no effect. -/
def Obligations.StableAndWakeMoveTheCab : Prop :=
  ∀ (s : State) (tag : Byte), Takes tag s.part →
    exec (.stable tag) s = .next { s with
      part :=
        if s.part.cab.state ≠ .inactive then respond tag 14 .unsafeState [] s.part
        else if (outstanding s.part.tables).isSome = true then respond tag 14 .busy [] s.part
        else respond tag 14 .ok [] { s.part with
          cab := { s.part.cab with
            state := .stabled
            pending := .none
            scrubCount := 0
            scrubPass := none
            driveRequest := false } } }
    ∧ exec (.wake tag) s = .next { s with
      part := respond tag 15 .ok []
        (if s.part.cab.state ≠ .stabled then s.part
        else if s.part.cab.scrubPass = none then
          { s.part with cab := { s.part.cab with state := .inactive, pending := .none } }
        else { s.part with cab := { s.part.cab with pending := .wake } }) }

/-- RESTART (R20, R43, R67, R77, R104, R131, R148, R167, R182, R189). In INACTIVE and STABLED the line keeps
everything but its error counts; the records, the cab, the traction, junction, stop and sound units are as
after power-on reset; the tables keep their words and sums, LOCKED_DOWN stays and every other table is
LOCKED; the pairing mark is empty and the governing entry stands (R43), so that the second copy of a RESTART sent
on both lanes is stored and accepted again, which is the model's choice against R183 (notes/assumptions/42.md);
the envelope's validity mark is that of the tables kept (R91); the flags are clear and its own answer is
the one response. In the other states it is refused with
UNSAFE. -/
def Obligations.RestartKeepsLineAndTables : Prop :=
  ∀ (s : State) (tag : Byte) (lines : Lines), Takes tag s.part →
    (s.part.cab.state = .activating ∨ s.part.cab.state = .active ∨ s.part.cab.state = .hold →
      exec (.restart tag lines) s =
        .next { s with part := respond tag 16 .unsafeState [] s.part })
    ∧ (s.part.cab.state = .inactive ∨ s.part.cab.state = .stabled →
      ∃ p : Part, exec (.restart tag lines) s = .next { s with part := p }
        ∧ p.line = { s.part.line with
            laneA := { s.part.line.laneA with errors := 0 }
            laneB := { s.part.line.laneB with errors := 0 } }
        ∧ p.node = s.part.node ∧ p.sentA = s.part.sentA ∧ p.sentB = s.part.sentB
        ∧ (∀ i, recordAt p i = SlotRecord.cleared) ∧ p.slots.mark = none
        ∧ p.slots.governing = s.part.slots.governing
        ∧ p.cab = CabAuthority.reset (if lines.aft then .aft else .fore)
        ∧ p.caps = CapTable.reset (lineCap s.part)
        ∧ p.traction = Traction.reset ∧ p.junction = JunctionUnit.reset
        ∧ p.stop = StopUnit.reset ∧ p.sound = Sound.reset
        ∧ (∀ t, (tableAt p.tables t).words = (tableAt s.part.tables t).words
            ∧ (tableAt p.tables t).ref = (tableAt s.part.tables t).ref
            ∧ (tableAt p.tables t).faulty = false
            ∧ (tableAt p.tables t).lock =
                if (tableAt s.part.tables t).lock = .lockedDown then .lockedDown else .locked)
        ∧ (p.tables.envelopeValid = true ↔ EnvelopeInOrder p)
        ∧ p.tables.armed = false ∧ p.tables.staging = .free
        ∧ p.tables.depot = { value := false, prev := none }
        ∧ p.tables.pointer = 0 ∧ p.tables.field = .s ∧ p.tables.held = []
        ∧ p.tables.front = List.replicate 24 0 ∧ p.tables.back = List.replicate 24 0
        ∧ p.mgmt = {
            flags := 0
            queue := [{ node := s.part.node, code := 16, tag := tag, result := .ok,
                        data := [0, 0, 0, 0, 0] }] })

/-- CLEAR_STATUS clears every sticky flag (R186), before its own OK joins the response queue
(notes/assumptions/36.md), and a code that names no command is answered UNKNOWN with no other effect
(R183); the code can be any of these (notes/assumptions/33.md). A store into an MGMT_IN record of a
management cell of two words or more addressed to the part is the acceptance of the command its words
spell, and any other store there has no effect (R183, section 11.4). -/
def Obligations.FlagsAreClearedAndUnknownCodesAnswered : Prop :=
  (∀ (s : State) (tag : Byte), Takes tag s.part →
    (∃ p : Part, exec (.clearStatus tag) s = .next { s with part := respond tag 2 .ok [] p }
      ∧ p = { s.part with mgmt := { s.part.mgmt with flags := 0 } }
      ∧ ∀ f, hasFlag p.mgmt.flags f = false)
    ∧ (∀ code : Byte, code = 0 ∨ 16 < code.toNat → exec (.unknownCommand tag code) s =
        .next { s with part := respond tag code .unknown [] s.part }))
  ∧ (∀ (i : Fin 82) (kind : Kind) (x : SlotRecord) (s : State),
    (kind = .mgmt → 2 ≤ x.length → (wordAt x.payload 0).extractLsb' 10 6 = s.part.node →
      exec (commandOf s.part.lines x.payload) s =
        .next { s with part := deliver i .mgmtIn kind x s.part })
    ∧ (kind ≠ .mgmt ∨ x.length < 2 ∨ (wordAt x.payload 0).extractLsb' 10 6 ≠ s.part.node →
      deliver i .mgmtIn kind x s.part = s.part))

/-- Acceptance (R172, R183): outside SYNCHRONISED, and with tag 0, a management command has no effect.
Accepted while the sequence is ARMED, a command that is no lock command disarms it and is refused with
SEQUENCE; a lock command accepted in IDLE is refused with SEQUENCE; each sets the flag SEQUENCE and has no
other effect. -/
def Obligations.CommandsOutOfSequenceAreRefused : Prop :=
  ∀ (c : Instr) (s : State) (tag code : Byte), managementHeader c = some (tag, code) →
    (s.part.line.state ≠ .synchronised ∨ tag = 0 → exec c s = .next s)
    ∧ (s.part.line.state = .synchronised → tag ≠ 0 → needsSetup c ≠ s.part.tables.armed →
        exec c s = .next { s with
          part := respond tag code .sequence [] (setFlag .sequence { s.part with
            tables := { s.part.tables with armed := false } }) })

/-- A table in LOCKED or LOCKED_DOWN is changed by no command and no event but power-on reset (R174): the
words of a table that is not UNLOCKED stand through every one of them. -/
def Obligations.LockedTableIsNotChanged : Prop :=
  ∀ (c : Instr) (s t : State) (x : TableId), (∀ lines, c ≠ .powerOnReset lines) →
    (tableAt s.part.tables x).lock ≠ .unlocked → exec c s = .next t →
      (tableAt t.part.tables x).words = (tableAt s.part.tables x).words

/-! ### Invariants -/

/-- Right after power-on reset every invariant holds. -/
def Obligations.InvariantsHoldAtReset : Prop :=
  LineOk State.reset.part ∧ StoresOk State.reset.part ∧ CabOk State.reset.part
    ∧ TablesOk State.reset.part ∧ DemandOk State.reset.part ∧ JunctionOk State.reset.part
    ∧ LampOk State.reset.part ∧ SoundOk State.reset.part

/-- Every step keeps the line interface's invariant: a slot is open exactly in SYNCHRONISED, the timer is
armed exactly outside UNSYNCHRONISED, and the runs and error counts stay in their ranges (R2, R6, R10, R16,
R17). Every step keeps the sizes of the records and the queues: eight payload words, an age up to 255, up
to four responses and up to four RELEASEs (R33, R124, R184). -/
def Obligations.StepKeepsTheLineAndTheStores : Prop :=
  ∀ s t : State, step s = .next t →
    (LineOk s.part → LineOk t.part) ∧ (StoresOk s.part → StoresOk t.part)

/-- Every step keeps the cab authority's invariant: the CAB row is present at 0 exactly outside ACTIVE with
no pending exit, and each state has its own pending exits and stages (R48). -/
def Obligations.StepKeepsTheCabRow : Prop :=
  ∀ s t : State, CabOk s.part → step s = .next t → CabOk t.part

/-- Every step keeps the tables in order: their lengths, their reference sums, the ranges of the parameters
and of the waiting images, the LINE row at line_cap, and the validity mark at R91's test of the envelope (R73,
R91, R170, R175); and with the tables in order
every step keeps the demand within −1000 and +1000 (R100). -/
def Obligations.StepKeepsTheTablesAndTheDemand : Prop :=
  ∀ s t : State, TablesOk s.part → step s = .next t →
    TablesOk t.part ∧ (DemandOk s.part → DemandOk t.part)

/-- Every step keeps the junction unit's invariant: a JUNCTION row is present exactly while its record is
open, and 0 while the record is in FAULT; no junction has two records; nothing is open or queued outside
ACTIVE and HOLD (R111, R112, R128). With it, every step keeps the alarm conditions the sound unit holds
equal to those of the blocks that present them (R91, R96, R112, R164). -/
def Obligations.StepKeepsTheJunctionRowsAndTheLamp : Prop :=
  ∀ s t : State, JunctionOk s.part → step s = .next t →
    JunctionOk t.part ∧ (LampOk s.part → LampOk t.part)

/-- Every step keeps the sound unit's invariant: one PLAYING source on a channel, a SUSPENDED source only
under a PLAYING one of higher priority, the DEPARTURE row at 0 exactly while DEPART is not IDLE, and
silence in INACTIVE and STABLED (R155, R159, R165). -/
def Obligations.StepKeepsTheSoundChannels : Prop :=
  ∀ s t : State, SoundOk s.part → step s = .next t → SoundOk t.part
end

