-- ==== Sys2Proof/Laws/State.lean ====
section
/-! SUPPORT. One lemma per field of `Part` per update that leaves it alone, and the fields an update
changes. -/

namespace Sys2Proof.Machine

set_option Elab.async false

/-! ### Levels, flags and rows -/

@[simp] theorem withLines_node (x : Lines) (p : Part) : (withLines x p).node = p.node := rfl
@[simp] theorem withLines_resetN (x : Lines) (p : Part) : (withLines x p).resetN = p.resetN := rfl
@[simp] theorem withLines_line (x : Lines) (p : Part) : (withLines x p).line = p.line := rfl
@[simp] theorem withLines_slots (x : Lines) (p : Part) : (withLines x p).slots = p.slots := rfl
@[simp] theorem withLines_cab (x : Lines) (p : Part) : (withLines x p).cab = p.cab := rfl
@[simp] theorem withLines_caps (x : Lines) (p : Part) : (withLines x p).caps = p.caps := rfl
@[simp] theorem withLines_traction (x : Lines) (p : Part) :
    (withLines x p).traction = p.traction := rfl
@[simp] theorem withLines_junction (x : Lines) (p : Part) :
    (withLines x p).junction = p.junction := rfl
@[simp] theorem withLines_stop (x : Lines) (p : Part) : (withLines x p).stop = p.stop := rfl
@[simp] theorem withLines_sound (x : Lines) (p : Part) : (withLines x p).sound = p.sound := rfl
@[simp] theorem withLines_tables (x : Lines) (p : Part) : (withLines x p).tables = p.tables := rfl
@[simp] theorem withLines_mgmt (x : Lines) (p : Part) : (withLines x p).mgmt = p.mgmt := rfl
@[simp] theorem withLines_sentA (x : Lines) (p : Part) : (withLines x p).sentA = p.sentA := rfl
@[simp] theorem withLines_sentB (x : Lines) (p : Part) : (withLines x p).sentB = p.sentB := rfl
@[simp] theorem withLines_lines (x : Lines) (p : Part) : (withLines x p).lines = x := rfl

@[simp] theorem setFlag_node (f : Flag) (p : Part) : (setFlag f p).node = p.node := rfl
@[simp] theorem setFlag_resetN (f : Flag) (p : Part) : (setFlag f p).resetN = p.resetN := rfl
@[simp] theorem setFlag_lines (f : Flag) (p : Part) : (setFlag f p).lines = p.lines := rfl
@[simp] theorem setFlag_line (f : Flag) (p : Part) : (setFlag f p).line = p.line := rfl
@[simp] theorem setFlag_slots (f : Flag) (p : Part) : (setFlag f p).slots = p.slots := rfl
@[simp] theorem setFlag_cab (f : Flag) (p : Part) : (setFlag f p).cab = p.cab := rfl
@[simp] theorem setFlag_caps (f : Flag) (p : Part) : (setFlag f p).caps = p.caps := rfl
@[simp] theorem setFlag_traction (f : Flag) (p : Part) : (setFlag f p).traction = p.traction := rfl
@[simp] theorem setFlag_junction (f : Flag) (p : Part) : (setFlag f p).junction = p.junction := rfl
@[simp] theorem setFlag_stop (f : Flag) (p : Part) : (setFlag f p).stop = p.stop := rfl
@[simp] theorem setFlag_sound (f : Flag) (p : Part) : (setFlag f p).sound = p.sound := rfl
@[simp] theorem setFlag_tables (f : Flag) (p : Part) : (setFlag f p).tables = p.tables := rfl
@[simp] theorem setFlag_sentA (f : Flag) (p : Part) : (setFlag f p).sentA = p.sentA := rfl
@[simp] theorem setFlag_sentB (f : Flag) (p : Part) : (setFlag f p).sentB = p.sentB := rfl
@[simp] theorem setFlag_queue (f : Flag) (p : Part) : (setFlag f p).mgmt.queue = p.mgmt.queue := rfl
@[simp] theorem setFlag_flags (f : Flag) (p : Part) :
    (setFlag f p).mgmt.flags = withFlag p.mgmt.flags f := rfl

@[simp] theorem setFlagIf_node (c : Bool) (f : Flag) (p : Part) :
    (setFlagIf c f p).node = p.node := rfl
@[simp] theorem setFlagIf_resetN (c : Bool) (f : Flag) (p : Part) :
    (setFlagIf c f p).resetN = p.resetN := rfl
@[simp] theorem setFlagIf_lines (c : Bool) (f : Flag) (p : Part) :
    (setFlagIf c f p).lines = p.lines := rfl
@[simp] theorem setFlagIf_line (c : Bool) (f : Flag) (p : Part) :
    (setFlagIf c f p).line = p.line := rfl
@[simp] theorem setFlagIf_slots (c : Bool) (f : Flag) (p : Part) :
    (setFlagIf c f p).slots = p.slots := rfl
@[simp] theorem setFlagIf_cab (c : Bool) (f : Flag) (p : Part) :
    (setFlagIf c f p).cab = p.cab := rfl
@[simp] theorem setFlagIf_caps (c : Bool) (f : Flag) (p : Part) :
    (setFlagIf c f p).caps = p.caps := rfl
@[simp] theorem setFlagIf_traction (c : Bool) (f : Flag) (p : Part) :
    (setFlagIf c f p).traction = p.traction := rfl
@[simp] theorem setFlagIf_junction (c : Bool) (f : Flag) (p : Part) :
    (setFlagIf c f p).junction = p.junction := rfl
@[simp] theorem setFlagIf_stop (c : Bool) (f : Flag) (p : Part) :
    (setFlagIf c f p).stop = p.stop := rfl
@[simp] theorem setFlagIf_sound (c : Bool) (f : Flag) (p : Part) :
    (setFlagIf c f p).sound = p.sound := rfl
@[simp] theorem setFlagIf_tables (c : Bool) (f : Flag) (p : Part) :
    (setFlagIf c f p).tables = p.tables := rfl
@[simp] theorem setFlagIf_sentA (c : Bool) (f : Flag) (p : Part) :
    (setFlagIf c f p).sentA = p.sentA := rfl
@[simp] theorem setFlagIf_sentB (c : Bool) (f : Flag) (p : Part) :
    (setFlagIf c f p).sentB = p.sentB := rfl
@[simp] theorem setFlagIf_queue (c : Bool) (f : Flag) (p : Part) :
    (setFlagIf c f p).mgmt.queue = p.mgmt.queue := rfl

@[simp] theorem clearFlags_node (p : Part) : (clearFlags p).node = p.node := rfl
@[simp] theorem clearFlags_resetN (p : Part) : (clearFlags p).resetN = p.resetN := rfl
@[simp] theorem clearFlags_lines (p : Part) : (clearFlags p).lines = p.lines := rfl
@[simp] theorem clearFlags_line (p : Part) : (clearFlags p).line = p.line := rfl
@[simp] theorem clearFlags_slots (p : Part) : (clearFlags p).slots = p.slots := rfl
@[simp] theorem clearFlags_cab (p : Part) : (clearFlags p).cab = p.cab := rfl
@[simp] theorem clearFlags_caps (p : Part) : (clearFlags p).caps = p.caps := rfl
@[simp] theorem clearFlags_traction (p : Part) : (clearFlags p).traction = p.traction := rfl
@[simp] theorem clearFlags_junction (p : Part) : (clearFlags p).junction = p.junction := rfl
@[simp] theorem clearFlags_stop (p : Part) : (clearFlags p).stop = p.stop := rfl
@[simp] theorem clearFlags_sound (p : Part) : (clearFlags p).sound = p.sound := rfl
@[simp] theorem clearFlags_tables (p : Part) : (clearFlags p).tables = p.tables := rfl
@[simp] theorem clearFlags_sentA (p : Part) : (clearFlags p).sentA = p.sentA := rfl
@[simp] theorem clearFlags_sentB (p : Part) : (clearFlags p).sentB = p.sentB := rfl
@[simp] theorem clearFlags_queue (p : Part) : (clearFlags p).mgmt.queue = p.mgmt.queue := rfl
@[simp] theorem clearFlags_flags (p : Part) : (clearFlags p).mgmt.flags = 0 := rfl

@[simp] theorem setRow_node (r : Row) (v : Nat) (p : Part) : (setRow r v p).node = p.node := rfl
@[simp] theorem setRow_resetN (r : Row) (v : Nat) (p : Part) :
    (setRow r v p).resetN = p.resetN := rfl
@[simp] theorem setRow_lines (r : Row) (v : Nat) (p : Part) : (setRow r v p).lines = p.lines := rfl
@[simp] theorem setRow_line (r : Row) (v : Nat) (p : Part) : (setRow r v p).line = p.line := rfl
@[simp] theorem setRow_slots (r : Row) (v : Nat) (p : Part) : (setRow r v p).slots = p.slots := rfl
@[simp] theorem setRow_cab (r : Row) (v : Nat) (p : Part) : (setRow r v p).cab = p.cab := rfl
@[simp] theorem setRow_traction (r : Row) (v : Nat) (p : Part) :
    (setRow r v p).traction = p.traction := rfl
@[simp] theorem setRow_junction (r : Row) (v : Nat) (p : Part) :
    (setRow r v p).junction = p.junction := rfl
@[simp] theorem setRow_stop (r : Row) (v : Nat) (p : Part) : (setRow r v p).stop = p.stop := rfl
@[simp] theorem setRow_sound (r : Row) (v : Nat) (p : Part) : (setRow r v p).sound = p.sound := rfl
@[simp] theorem setRow_tables (r : Row) (v : Nat) (p : Part) :
    (setRow r v p).tables = p.tables := rfl
@[simp] theorem setRow_mgmt (r : Row) (v : Nat) (p : Part) : (setRow r v p).mgmt = p.mgmt := rfl
@[simp] theorem setRow_sentA (r : Row) (v : Nat) (p : Part) : (setRow r v p).sentA = p.sentA := rfl
@[simp] theorem setRow_sentB (r : Row) (v : Nat) (p : Part) : (setRow r v p).sentB = p.sentB := rfl
@[simp] theorem setRow_caps (r : Row) (v : Nat) (p : Part) :
    (setRow r v p).caps = putRow p.caps r (some v) := rfl

@[simp] theorem withdrawRow_node (r : Row) (p : Part) : (withdrawRow r p).node = p.node := rfl
@[simp] theorem withdrawRow_resetN (r : Row) (p : Part) : (withdrawRow r p).resetN = p.resetN := rfl
@[simp] theorem withdrawRow_lines (r : Row) (p : Part) : (withdrawRow r p).lines = p.lines := rfl
@[simp] theorem withdrawRow_line (r : Row) (p : Part) : (withdrawRow r p).line = p.line := rfl
@[simp] theorem withdrawRow_slots (r : Row) (p : Part) : (withdrawRow r p).slots = p.slots := rfl
@[simp] theorem withdrawRow_cab (r : Row) (p : Part) : (withdrawRow r p).cab = p.cab := rfl
@[simp] theorem withdrawRow_traction (r : Row) (p : Part) :
    (withdrawRow r p).traction = p.traction := rfl
@[simp] theorem withdrawRow_junction (r : Row) (p : Part) :
    (withdrawRow r p).junction = p.junction := rfl
@[simp] theorem withdrawRow_stop (r : Row) (p : Part) : (withdrawRow r p).stop = p.stop := rfl
@[simp] theorem withdrawRow_sound (r : Row) (p : Part) : (withdrawRow r p).sound = p.sound := rfl
@[simp] theorem withdrawRow_tables (r : Row) (p : Part) : (withdrawRow r p).tables = p.tables := rfl
@[simp] theorem withdrawRow_mgmt (r : Row) (p : Part) : (withdrawRow r p).mgmt = p.mgmt := rfl
@[simp] theorem withdrawRow_sentA (r : Row) (p : Part) : (withdrawRow r p).sentA = p.sentA := rfl
@[simp] theorem withdrawRow_sentB (r : Row) (p : Part) : (withdrawRow r p).sentB = p.sentB := rfl
@[simp] theorem withdrawRow_caps (r : Row) (p : Part) :
    (withdrawRow r p).caps = putRow p.caps r none := rfl

/-! ### Records, lanes and outputs -/

@[simp] theorem putRecord_node (i : Fin 82) (r : SlotRecord) (p : Part) :
    (putRecord i r p).node = p.node := rfl
@[simp] theorem putRecord_resetN (i : Fin 82) (r : SlotRecord) (p : Part) :
    (putRecord i r p).resetN = p.resetN := rfl
@[simp] theorem putRecord_lines (i : Fin 82) (r : SlotRecord) (p : Part) :
    (putRecord i r p).lines = p.lines := rfl
@[simp] theorem putRecord_line (i : Fin 82) (r : SlotRecord) (p : Part) :
    (putRecord i r p).line = p.line := rfl
@[simp] theorem putRecord_cab (i : Fin 82) (r : SlotRecord) (p : Part) :
    (putRecord i r p).cab = p.cab := rfl
@[simp] theorem putRecord_caps (i : Fin 82) (r : SlotRecord) (p : Part) :
    (putRecord i r p).caps = p.caps := rfl
@[simp] theorem putRecord_traction (i : Fin 82) (r : SlotRecord) (p : Part) :
    (putRecord i r p).traction = p.traction := rfl
@[simp] theorem putRecord_junction (i : Fin 82) (r : SlotRecord) (p : Part) :
    (putRecord i r p).junction = p.junction := rfl
@[simp] theorem putRecord_stop (i : Fin 82) (r : SlotRecord) (p : Part) :
    (putRecord i r p).stop = p.stop := rfl
@[simp] theorem putRecord_sound (i : Fin 82) (r : SlotRecord) (p : Part) :
    (putRecord i r p).sound = p.sound := rfl
@[simp] theorem putRecord_tables (i : Fin 82) (r : SlotRecord) (p : Part) :
    (putRecord i r p).tables = p.tables := rfl
@[simp] theorem putRecord_mgmt (i : Fin 82) (r : SlotRecord) (p : Part) :
    (putRecord i r p).mgmt = p.mgmt := rfl
@[simp] theorem putRecord_sentA (i : Fin 82) (r : SlotRecord) (p : Part) :
    (putRecord i r p).sentA = p.sentA := rfl
@[simp] theorem putRecord_sentB (i : Fin 82) (r : SlotRecord) (p : Part) :
    (putRecord i r p).sentB = p.sentB := rfl
@[simp] theorem putRecord_mark (i : Fin 82) (r : SlotRecord) (p : Part) :
    (putRecord i r p).slots.mark = p.slots.mark := rfl
@[simp] theorem putRecord_governing (i : Fin 82) (r : SlotRecord) (p : Part) :
    (putRecord i r p).slots.governing = p.slots.governing := rfl
@[simp] theorem putRecord_stores (i : Fin 82) (r : SlotRecord) (p : Part) :
    (putRecord i r p).slots.stores = p.slots.stores := rfl

@[simp] theorem setOutcome_node (g : Governing) (l : Lane) (o : LaneOutcome) (p : Part) :
    (setOutcome g l o p).node = p.node := rfl
@[simp] theorem setOutcome_resetN (g : Governing) (l : Lane) (o : LaneOutcome) (p : Part) :
    (setOutcome g l o p).resetN = p.resetN := rfl
@[simp] theorem setOutcome_lines (g : Governing) (l : Lane) (o : LaneOutcome) (p : Part) :
    (setOutcome g l o p).lines = p.lines := rfl
@[simp] theorem setOutcome_line (g : Governing) (l : Lane) (o : LaneOutcome) (p : Part) :
    (setOutcome g l o p).line = p.line := rfl
@[simp] theorem setOutcome_cab (g : Governing) (l : Lane) (o : LaneOutcome) (p : Part) :
    (setOutcome g l o p).cab = p.cab := rfl
@[simp] theorem setOutcome_caps (g : Governing) (l : Lane) (o : LaneOutcome) (p : Part) :
    (setOutcome g l o p).caps = p.caps := rfl
@[simp] theorem setOutcome_traction (g : Governing) (l : Lane) (o : LaneOutcome) (p : Part) :
    (setOutcome g l o p).traction = p.traction := rfl
@[simp] theorem setOutcome_junction (g : Governing) (l : Lane) (o : LaneOutcome) (p : Part) :
    (setOutcome g l o p).junction = p.junction := rfl
@[simp] theorem setOutcome_stop (g : Governing) (l : Lane) (o : LaneOutcome) (p : Part) :
    (setOutcome g l o p).stop = p.stop := rfl
@[simp] theorem setOutcome_sound (g : Governing) (l : Lane) (o : LaneOutcome) (p : Part) :
    (setOutcome g l o p).sound = p.sound := rfl
@[simp] theorem setOutcome_tables (g : Governing) (l : Lane) (o : LaneOutcome) (p : Part) :
    (setOutcome g l o p).tables = p.tables := rfl
@[simp] theorem setOutcome_mgmt (g : Governing) (l : Lane) (o : LaneOutcome) (p : Part) :
    (setOutcome g l o p).mgmt = p.mgmt := rfl
@[simp] theorem setOutcome_sentA (g : Governing) (l : Lane) (o : LaneOutcome) (p : Part) :
    (setOutcome g l o p).sentA = p.sentA := rfl
@[simp] theorem setOutcome_sentB (g : Governing) (l : Lane) (o : LaneOutcome) (p : Part) :
    (setOutcome g l o p).sentB = p.sentB := rfl

@[simp] theorem markSent_node (g : Governing) (ws : List Word) (p : Part) :
    (markSent g ws p).node = p.node := rfl
@[simp] theorem markSent_resetN (g : Governing) (ws : List Word) (p : Part) :
    (markSent g ws p).resetN = p.resetN := rfl
@[simp] theorem markSent_lines (g : Governing) (ws : List Word) (p : Part) :
    (markSent g ws p).lines = p.lines := rfl
@[simp] theorem markSent_line (g : Governing) (ws : List Word) (p : Part) :
    (markSent g ws p).line = p.line := rfl
@[simp] theorem markSent_cab (g : Governing) (ws : List Word) (p : Part) :
    (markSent g ws p).cab = p.cab := rfl
@[simp] theorem markSent_caps (g : Governing) (ws : List Word) (p : Part) :
    (markSent g ws p).caps = p.caps := rfl
@[simp] theorem markSent_traction (g : Governing) (ws : List Word) (p : Part) :
    (markSent g ws p).traction = p.traction := rfl
@[simp] theorem markSent_junction (g : Governing) (ws : List Word) (p : Part) :
    (markSent g ws p).junction = p.junction := rfl
@[simp] theorem markSent_stop (g : Governing) (ws : List Word) (p : Part) :
    (markSent g ws p).stop = p.stop := rfl
@[simp] theorem markSent_sound (g : Governing) (ws : List Word) (p : Part) :
    (markSent g ws p).sound = p.sound := rfl
@[simp] theorem markSent_tables (g : Governing) (ws : List Word) (p : Part) :
    (markSent g ws p).tables = p.tables := rfl
@[simp] theorem markSent_mgmt (g : Governing) (ws : List Word) (p : Part) :
    (markSent g ws p).mgmt = p.mgmt := rfl
@[simp] theorem markSent_sentA (g : Governing) (ws : List Word) (p : Part) :
    (markSent g ws p).sentA = p.sentA := rfl
@[simp] theorem markSent_sentB (g : Governing) (ws : List Word) (p : Part) :
    (markSent g ws p).sentB = p.sentB := rfl

@[simp] theorem countError_node (l : Lane) (p : Part) : (countError l p).node = p.node := rfl
@[simp] theorem countError_resetN (l : Lane) (p : Part) : (countError l p).resetN = p.resetN := rfl
@[simp] theorem countError_lines (l : Lane) (p : Part) : (countError l p).lines = p.lines := rfl
@[simp] theorem countError_slots (l : Lane) (p : Part) : (countError l p).slots = p.slots := rfl
@[simp] theorem countError_cab (l : Lane) (p : Part) : (countError l p).cab = p.cab := rfl
@[simp] theorem countError_caps (l : Lane) (p : Part) : (countError l p).caps = p.caps := rfl
@[simp] theorem countError_traction (l : Lane) (p : Part) :
    (countError l p).traction = p.traction := rfl
@[simp] theorem countError_junction (l : Lane) (p : Part) :
    (countError l p).junction = p.junction := rfl
@[simp] theorem countError_stop (l : Lane) (p : Part) : (countError l p).stop = p.stop := rfl
@[simp] theorem countError_sound (l : Lane) (p : Part) : (countError l p).sound = p.sound := rfl
@[simp] theorem countError_tables (l : Lane) (p : Part) : (countError l p).tables = p.tables := rfl
@[simp] theorem countError_mgmt (l : Lane) (p : Part) : (countError l p).mgmt = p.mgmt := rfl
@[simp] theorem countError_sentA (l : Lane) (p : Part) : (countError l p).sentA = p.sentA := rfl
@[simp] theorem countError_sentB (l : Lane) (p : Part) : (countError l p).sentB = p.sentB := rfl

@[simp] theorem creditLane_node (l : Lane) (p : Part) : (creditLane l p).node = p.node := rfl
@[simp] theorem creditLane_resetN (l : Lane) (p : Part) : (creditLane l p).resetN = p.resetN := rfl
@[simp] theorem creditLane_lines (l : Lane) (p : Part) : (creditLane l p).lines = p.lines := rfl
@[simp] theorem creditLane_slots (l : Lane) (p : Part) : (creditLane l p).slots = p.slots := rfl
@[simp] theorem creditLane_cab (l : Lane) (p : Part) : (creditLane l p).cab = p.cab := rfl
@[simp] theorem creditLane_caps (l : Lane) (p : Part) : (creditLane l p).caps = p.caps := rfl
@[simp] theorem creditLane_traction (l : Lane) (p : Part) :
    (creditLane l p).traction = p.traction := rfl
@[simp] theorem creditLane_junction (l : Lane) (p : Part) :
    (creditLane l p).junction = p.junction := rfl
@[simp] theorem creditLane_stop (l : Lane) (p : Part) : (creditLane l p).stop = p.stop := rfl
@[simp] theorem creditLane_sound (l : Lane) (p : Part) : (creditLane l p).sound = p.sound := rfl
@[simp] theorem creditLane_tables (l : Lane) (p : Part) : (creditLane l p).tables = p.tables := rfl
@[simp] theorem creditLane_mgmt (l : Lane) (p : Part) : (creditLane l p).mgmt = p.mgmt := rfl
@[simp] theorem creditLane_sentA (l : Lane) (p : Part) : (creditLane l p).sentA = p.sentA := rfl
@[simp] theorem creditLane_sentB (l : Lane) (p : Part) : (creditLane l p).sentB = p.sentB := rfl

@[simp] theorem markHanded_node (l : Lane) (p : Part) : (markHanded l p).node = p.node := rfl
@[simp] theorem markHanded_resetN (l : Lane) (p : Part) : (markHanded l p).resetN = p.resetN := rfl
@[simp] theorem markHanded_lines (l : Lane) (p : Part) : (markHanded l p).lines = p.lines := rfl
@[simp] theorem markHanded_slots (l : Lane) (p : Part) : (markHanded l p).slots = p.slots := rfl
@[simp] theorem markHanded_cab (l : Lane) (p : Part) : (markHanded l p).cab = p.cab := rfl
@[simp] theorem markHanded_caps (l : Lane) (p : Part) : (markHanded l p).caps = p.caps := rfl
@[simp] theorem markHanded_traction (l : Lane) (p : Part) :
    (markHanded l p).traction = p.traction := rfl
@[simp] theorem markHanded_junction (l : Lane) (p : Part) :
    (markHanded l p).junction = p.junction := rfl
@[simp] theorem markHanded_stop (l : Lane) (p : Part) : (markHanded l p).stop = p.stop := rfl
@[simp] theorem markHanded_sound (l : Lane) (p : Part) : (markHanded l p).sound = p.sound := rfl
@[simp] theorem markHanded_tables (l : Lane) (p : Part) : (markHanded l p).tables = p.tables := rfl
@[simp] theorem markHanded_mgmt (l : Lane) (p : Part) : (markHanded l p).mgmt = p.mgmt := rfl
@[simp] theorem markHanded_sentA (l : Lane) (p : Part) : (markHanded l p).sentA = p.sentA := rfl
@[simp] theorem markHanded_sentB (l : Lane) (p : Part) : (markHanded l p).sentB = p.sentB := rfl

@[simp] theorem drive_node (l : Lane) (cell : List Word) (p : Part) :
    (drive l cell p).node = p.node := by
  cases l <;> rfl
@[simp] theorem drive_resetN (l : Lane) (cell : List Word) (p : Part) :
    (drive l cell p).resetN = p.resetN := by
  cases l <;> rfl
@[simp] theorem drive_lines (l : Lane) (cell : List Word) (p : Part) :
    (drive l cell p).lines = p.lines := by
  cases l <;> rfl
@[simp] theorem drive_line (l : Lane) (cell : List Word) (p : Part) :
    (drive l cell p).line = p.line := by
  cases l <;> rfl
@[simp] theorem drive_slots (l : Lane) (cell : List Word) (p : Part) :
    (drive l cell p).slots = p.slots := by
  cases l <;> rfl
@[simp] theorem drive_cab (l : Lane) (cell : List Word) (p : Part) :
    (drive l cell p).cab = p.cab := by
  cases l <;> rfl
@[simp] theorem drive_caps (l : Lane) (cell : List Word) (p : Part) :
    (drive l cell p).caps = p.caps := by
  cases l <;> rfl
@[simp] theorem drive_traction (l : Lane) (cell : List Word) (p : Part) :
    (drive l cell p).traction = p.traction := by
  cases l <;> rfl
@[simp] theorem drive_junction (l : Lane) (cell : List Word) (p : Part) :
    (drive l cell p).junction = p.junction := by
  cases l <;> rfl
@[simp] theorem drive_stop (l : Lane) (cell : List Word) (p : Part) :
    (drive l cell p).stop = p.stop := by
  cases l <;> rfl
@[simp] theorem drive_sound (l : Lane) (cell : List Word) (p : Part) :
    (drive l cell p).sound = p.sound := by
  cases l <;> rfl
@[simp] theorem drive_tables (l : Lane) (cell : List Word) (p : Part) :
    (drive l cell p).tables = p.tables := by
  cases l <;> rfl
@[simp] theorem drive_mgmt (l : Lane) (cell : List Word) (p : Part) :
    (drive l cell p).mgmt = p.mgmt := by
  cases l <;> rfl

@[simp] theorem respond_node (tag code : Byte) (x : Result) (ws : List Word) (p : Part) :
    (respond tag code x ws p).node = p.node := by
  unfold respond; split <;> rfl
@[simp] theorem respond_resetN (tag code : Byte) (x : Result) (ws : List Word) (p : Part) :
    (respond tag code x ws p).resetN = p.resetN := by
  unfold respond; split <;> rfl
@[simp] theorem respond_lines (tag code : Byte) (x : Result) (ws : List Word) (p : Part) :
    (respond tag code x ws p).lines = p.lines := by
  unfold respond; split <;> rfl
@[simp] theorem respond_line (tag code : Byte) (x : Result) (ws : List Word) (p : Part) :
    (respond tag code x ws p).line = p.line := by
  unfold respond; split <;> rfl
@[simp] theorem respond_slots (tag code : Byte) (x : Result) (ws : List Word) (p : Part) :
    (respond tag code x ws p).slots = p.slots := by
  unfold respond; split <;> rfl
@[simp] theorem respond_cab (tag code : Byte) (x : Result) (ws : List Word) (p : Part) :
    (respond tag code x ws p).cab = p.cab := by
  unfold respond; split <;> rfl
@[simp] theorem respond_caps (tag code : Byte) (x : Result) (ws : List Word) (p : Part) :
    (respond tag code x ws p).caps = p.caps := by
  unfold respond; split <;> rfl
@[simp] theorem respond_traction (tag code : Byte) (x : Result) (ws : List Word) (p : Part) :
    (respond tag code x ws p).traction = p.traction := by
  unfold respond; split <;> rfl
@[simp] theorem respond_junction (tag code : Byte) (x : Result) (ws : List Word) (p : Part) :
    (respond tag code x ws p).junction = p.junction := by
  unfold respond; split <;> rfl
@[simp] theorem respond_stop (tag code : Byte) (x : Result) (ws : List Word) (p : Part) :
    (respond tag code x ws p).stop = p.stop := by
  unfold respond; split <;> rfl
@[simp] theorem respond_sound (tag code : Byte) (x : Result) (ws : List Word) (p : Part) :
    (respond tag code x ws p).sound = p.sound := by
  unfold respond; split <;> rfl
@[simp] theorem respond_tables (tag code : Byte) (x : Result) (ws : List Word) (p : Part) :
    (respond tag code x ws p).tables = p.tables := by
  unfold respond; split <;> rfl
@[simp] theorem respond_sentA (tag code : Byte) (x : Result) (ws : List Word) (p : Part) :
    (respond tag code x ws p).sentA = p.sentA := by
  unfold respond; split <;> rfl
@[simp] theorem respond_sentB (tag code : Byte) (x : Result) (ws : List Word) (p : Part) :
    (respond tag code x ws p).sentB = p.sentB := by
  unfold respond; split <;> rfl

/-! ### Sound, junctions and tables -/

@[simp] theorem withSound_node (x : Sound) (p : Part) : (withSound x p).node = p.node := rfl
@[simp] theorem withSound_resetN (x : Sound) (p : Part) : (withSound x p).resetN = p.resetN := rfl
@[simp] theorem withSound_lines (x : Sound) (p : Part) : (withSound x p).lines = p.lines := rfl
@[simp] theorem withSound_line (x : Sound) (p : Part) : (withSound x p).line = p.line := rfl
@[simp] theorem withSound_slots (x : Sound) (p : Part) : (withSound x p).slots = p.slots := rfl
@[simp] theorem withSound_cab (x : Sound) (p : Part) : (withSound x p).cab = p.cab := rfl
@[simp] theorem withSound_traction (x : Sound) (p : Part) :
    (withSound x p).traction = p.traction := rfl
@[simp] theorem withSound_junction (x : Sound) (p : Part) :
    (withSound x p).junction = p.junction := rfl
@[simp] theorem withSound_stop (x : Sound) (p : Part) : (withSound x p).stop = p.stop := rfl
@[simp] theorem withSound_tables (x : Sound) (p : Part) : (withSound x p).tables = p.tables := rfl
@[simp] theorem withSound_mgmt (x : Sound) (p : Part) : (withSound x p).mgmt = p.mgmt := rfl
@[simp] theorem withSound_sentA (x : Sound) (p : Part) : (withSound x p).sentA = p.sentA := rfl
@[simp] theorem withSound_sentB (x : Sound) (p : Part) : (withSound x p).sentB = p.sentB := rfl
@[simp] theorem withSound_sound (x : Sound) (p : Part) : (withSound x p).sound = x := rfl

@[simp] theorem withList_node (x : Vector (Option JunctionRecord) 4) (p : Part) :
    (withList x p).node = p.node := rfl
@[simp] theorem withList_resetN (x : Vector (Option JunctionRecord) 4) (p : Part) :
    (withList x p).resetN = p.resetN := rfl
@[simp] theorem withList_lines (x : Vector (Option JunctionRecord) 4) (p : Part) :
    (withList x p).lines = p.lines := rfl
@[simp] theorem withList_line (x : Vector (Option JunctionRecord) 4) (p : Part) :
    (withList x p).line = p.line := rfl
@[simp] theorem withList_slots (x : Vector (Option JunctionRecord) 4) (p : Part) :
    (withList x p).slots = p.slots := rfl
@[simp] theorem withList_cab (x : Vector (Option JunctionRecord) 4) (p : Part) :
    (withList x p).cab = p.cab := rfl
@[simp] theorem withList_caps (x : Vector (Option JunctionRecord) 4) (p : Part) :
    (withList x p).caps = p.caps := rfl
@[simp] theorem withList_traction (x : Vector (Option JunctionRecord) 4) (p : Part) :
    (withList x p).traction = p.traction := rfl
@[simp] theorem withList_stop (x : Vector (Option JunctionRecord) 4) (p : Part) :
    (withList x p).stop = p.stop := rfl
@[simp] theorem withList_tables (x : Vector (Option JunctionRecord) 4) (p : Part) :
    (withList x p).tables = p.tables := rfl
@[simp] theorem withList_mgmt (x : Vector (Option JunctionRecord) 4) (p : Part) :
    (withList x p).mgmt = p.mgmt := rfl
@[simp] theorem withList_sentA (x : Vector (Option JunctionRecord) 4) (p : Part) :
    (withList x p).sentA = p.sentA := rfl
@[simp] theorem withList_sentB (x : Vector (Option JunctionRecord) 4) (p : Part) :
    (withList x p).sentB = p.sentB := rfl
@[simp] theorem withList_list (x : Vector (Option JunctionRecord) 4) (p : Part) :
    (withList x p).junction.list = x := rfl

@[simp] theorem putOpen_node (pos : Fin 4) (r : JunctionRecord) (p : Part) :
    (putOpen pos r p).node = p.node := rfl
@[simp] theorem putOpen_resetN (pos : Fin 4) (r : JunctionRecord) (p : Part) :
    (putOpen pos r p).resetN = p.resetN := rfl
@[simp] theorem putOpen_lines (pos : Fin 4) (r : JunctionRecord) (p : Part) :
    (putOpen pos r p).lines = p.lines := rfl
@[simp] theorem putOpen_line (pos : Fin 4) (r : JunctionRecord) (p : Part) :
    (putOpen pos r p).line = p.line := rfl
@[simp] theorem putOpen_slots (pos : Fin 4) (r : JunctionRecord) (p : Part) :
    (putOpen pos r p).slots = p.slots := rfl
@[simp] theorem putOpen_cab (pos : Fin 4) (r : JunctionRecord) (p : Part) :
    (putOpen pos r p).cab = p.cab := rfl
@[simp] theorem putOpen_caps (pos : Fin 4) (r : JunctionRecord) (p : Part) :
    (putOpen pos r p).caps = p.caps := rfl
@[simp] theorem putOpen_traction (pos : Fin 4) (r : JunctionRecord) (p : Part) :
    (putOpen pos r p).traction = p.traction := rfl
@[simp] theorem putOpen_stop (pos : Fin 4) (r : JunctionRecord) (p : Part) :
    (putOpen pos r p).stop = p.stop := rfl
@[simp] theorem putOpen_tables (pos : Fin 4) (r : JunctionRecord) (p : Part) :
    (putOpen pos r p).tables = p.tables := rfl
@[simp] theorem putOpen_mgmt (pos : Fin 4) (r : JunctionRecord) (p : Part) :
    (putOpen pos r p).mgmt = p.mgmt := rfl
@[simp] theorem putOpen_sentA (pos : Fin 4) (r : JunctionRecord) (p : Part) :
    (putOpen pos r p).sentA = p.sentA := rfl
@[simp] theorem putOpen_sentB (pos : Fin 4) (r : JunctionRecord) (p : Part) :
    (putOpen pos r p).sentB = p.sentB := rfl

@[simp] theorem markEnvelope_node (p : Part) : (markEnvelope p).node = p.node := rfl
@[simp] theorem markEnvelope_resetN (p : Part) : (markEnvelope p).resetN = p.resetN := rfl
@[simp] theorem markEnvelope_lines (p : Part) : (markEnvelope p).lines = p.lines := rfl
@[simp] theorem markEnvelope_line (p : Part) : (markEnvelope p).line = p.line := rfl
@[simp] theorem markEnvelope_slots (p : Part) : (markEnvelope p).slots = p.slots := rfl
@[simp] theorem markEnvelope_cab (p : Part) : (markEnvelope p).cab = p.cab := rfl
@[simp] theorem markEnvelope_caps (p : Part) : (markEnvelope p).caps = p.caps := rfl
@[simp] theorem markEnvelope_traction (p : Part) : (markEnvelope p).traction = p.traction := rfl
@[simp] theorem markEnvelope_junction (p : Part) : (markEnvelope p).junction = p.junction := rfl
@[simp] theorem markEnvelope_stop (p : Part) : (markEnvelope p).stop = p.stop := rfl
@[simp] theorem markEnvelope_sound (p : Part) : (markEnvelope p).sound = p.sound := rfl
@[simp] theorem markEnvelope_mgmt (p : Part) : (markEnvelope p).mgmt = p.mgmt := rfl
@[simp] theorem markEnvelope_sentA (p : Part) : (markEnvelope p).sentA = p.sentA := rfl
@[simp] theorem markEnvelope_sentB (p : Part) : (markEnvelope p).sentB = p.sentB := rfl

@[simp] theorem withLock_node (t : TableId) (x : LockState) (p : Part) :
    (withLock t x p).node = p.node := rfl
@[simp] theorem withLock_resetN (t : TableId) (x : LockState) (p : Part) :
    (withLock t x p).resetN = p.resetN := rfl
@[simp] theorem withLock_lines (t : TableId) (x : LockState) (p : Part) :
    (withLock t x p).lines = p.lines := rfl
@[simp] theorem withLock_line (t : TableId) (x : LockState) (p : Part) :
    (withLock t x p).line = p.line := rfl
@[simp] theorem withLock_slots (t : TableId) (x : LockState) (p : Part) :
    (withLock t x p).slots = p.slots := rfl
@[simp] theorem withLock_cab (t : TableId) (x : LockState) (p : Part) :
    (withLock t x p).cab = p.cab := rfl
@[simp] theorem withLock_caps (t : TableId) (x : LockState) (p : Part) :
    (withLock t x p).caps = p.caps := rfl
@[simp] theorem withLock_traction (t : TableId) (x : LockState) (p : Part) :
    (withLock t x p).traction = p.traction := rfl
@[simp] theorem withLock_junction (t : TableId) (x : LockState) (p : Part) :
    (withLock t x p).junction = p.junction := rfl
@[simp] theorem withLock_stop (t : TableId) (x : LockState) (p : Part) :
    (withLock t x p).stop = p.stop := rfl
@[simp] theorem withLock_sound (t : TableId) (x : LockState) (p : Part) :
    (withLock t x p).sound = p.sound := rfl
@[simp] theorem withLock_mgmt (t : TableId) (x : LockState) (p : Part) :
    (withLock t x p).mgmt = p.mgmt := rfl
@[simp] theorem withLock_sentA (t : TableId) (x : LockState) (p : Part) :
    (withLock t x p).sentA = p.sentA := rfl
@[simp] theorem withLock_sentB (t : TableId) (x : LockState) (p : Part) :
    (withLock t x p).sentB = p.sentB := rfl

@[simp] theorem disarm_node (p : Part) : (disarm p).node = p.node := rfl
@[simp] theorem disarm_resetN (p : Part) : (disarm p).resetN = p.resetN := rfl
@[simp] theorem disarm_lines (p : Part) : (disarm p).lines = p.lines := rfl
@[simp] theorem disarm_line (p : Part) : (disarm p).line = p.line := rfl
@[simp] theorem disarm_slots (p : Part) : (disarm p).slots = p.slots := rfl
@[simp] theorem disarm_cab (p : Part) : (disarm p).cab = p.cab := rfl
@[simp] theorem disarm_caps (p : Part) : (disarm p).caps = p.caps := rfl
@[simp] theorem disarm_traction (p : Part) : (disarm p).traction = p.traction := rfl
@[simp] theorem disarm_junction (p : Part) : (disarm p).junction = p.junction := rfl
@[simp] theorem disarm_stop (p : Part) : (disarm p).stop = p.stop := rfl
@[simp] theorem disarm_sound (p : Part) : (disarm p).sound = p.sound := rfl
@[simp] theorem disarm_mgmt (p : Part) : (disarm p).mgmt = p.mgmt := rfl
@[simp] theorem disarm_sentA (p : Part) : (disarm p).sentA = p.sentA := rfl
@[simp] theorem disarm_sentB (p : Part) : (disarm p).sentB = p.sentB := rfl

@[simp] theorem movePointer_node (k : Fin 16) (x : EnvelopeField) (ws : List Word) (p : Part) :
    (movePointer k x ws p).node = p.node := rfl
@[simp] theorem movePointer_resetN (k : Fin 16) (x : EnvelopeField) (ws : List Word) (p : Part) :
    (movePointer k x ws p).resetN = p.resetN := rfl
@[simp] theorem movePointer_lines (k : Fin 16) (x : EnvelopeField) (ws : List Word) (p : Part) :
    (movePointer k x ws p).lines = p.lines := rfl
@[simp] theorem movePointer_line (k : Fin 16) (x : EnvelopeField) (ws : List Word) (p : Part) :
    (movePointer k x ws p).line = p.line := rfl
@[simp] theorem movePointer_slots (k : Fin 16) (x : EnvelopeField) (ws : List Word) (p : Part) :
    (movePointer k x ws p).slots = p.slots := rfl
@[simp] theorem movePointer_cab (k : Fin 16) (x : EnvelopeField) (ws : List Word) (p : Part) :
    (movePointer k x ws p).cab = p.cab := rfl
@[simp] theorem movePointer_caps (k : Fin 16) (x : EnvelopeField) (ws : List Word) (p : Part) :
    (movePointer k x ws p).caps = p.caps := rfl
@[simp] theorem movePointer_traction (k : Fin 16) (x : EnvelopeField) (ws : List Word) (p : Part) :
    (movePointer k x ws p).traction = p.traction := rfl
@[simp] theorem movePointer_junction (k : Fin 16) (x : EnvelopeField) (ws : List Word) (p : Part) :
    (movePointer k x ws p).junction = p.junction := rfl
@[simp] theorem movePointer_stop (k : Fin 16) (x : EnvelopeField) (ws : List Word) (p : Part) :
    (movePointer k x ws p).stop = p.stop := rfl
@[simp] theorem movePointer_sound (k : Fin 16) (x : EnvelopeField) (ws : List Word) (p : Part) :
    (movePointer k x ws p).sound = p.sound := rfl
@[simp] theorem movePointer_mgmt (k : Fin 16) (x : EnvelopeField) (ws : List Word) (p : Part) :
    (movePointer k x ws p).mgmt = p.mgmt := rfl
@[simp] theorem movePointer_sentA (k : Fin 16) (x : EnvelopeField) (ws : List Word) (p : Part) :
    (movePointer k x ws p).sentA = p.sentA := rfl
@[simp] theorem movePointer_sentB (k : Fin 16) (x : EnvelopeField) (ws : List Word) (p : Part) :
    (movePointer k x ws p).sentB = p.sentB := rfl

end Sys2Proof.Machine
end

