-- ==== Sys2Proof/Laws/Ops.lean ====
section
/-! SUPPORT. What the shared operations do: reading back what was written, flags, lengths, the order of a
cycle start's work, the acceptance of management commands, and the guarded events. -/

namespace Sys2Proof.Machine

set_option Elab.async false

/-! ### Reading back -/

@[simp] theorem recordAt_putRecord_self (i : Fin 82) (r : SlotRecord) (p : Part) :
    recordAt (putRecord i r p) i = r := by
  simp [recordAt, putRecord]

theorem recordAt_putRecord_ne {i j : Fin 82} (h : i ≠ j) (r : SlotRecord) (p : Part) :
    recordAt (putRecord i r p) j = recordAt p j := by
  simp [recordAt, putRecord, Fin.val_ne_of_ne h]

@[simp] theorem laneOf_withLane_self (li : LineInterface) (l : Lane) (x : LaneState) :
    laneOf (withLane li l x) l = x := by
  cases l <;> rfl

theorem laneOf_withLane_ne {l m : Lane} (h : l ≠ m) (li : LineInterface) (x : LaneState) :
    laneOf (withLane li l x) m = laneOf li m := by
  cases l <;> cases m <;> first | rfl | exact absurd rfl h

@[simp] theorem sentOn_drive_self (l : Lane) (cell : List Word) (p : Part) :
    sentOn (drive l cell p) l = cell :: sentOn p l := by
  cases l <;> rfl

theorem sentOn_drive_ne {l m : Lane} (h : l ≠ m) (cell : List Word) (p : Part) :
    sentOn (drive l cell p) m = sentOn p m := by
  cases l <;> cases m <;> first | rfl | exact absurd rfl h

@[simp] theorem openAt_withList (x : Vector (Option JunctionRecord) 4) (p : Part) (pos : Fin 4) :
    openAt (withList x p) pos = x[pos] := rfl

@[simp] theorem openAt_putOpen_self (pos : Fin 4) (r : JunctionRecord) (p : Part) :
    openAt (putOpen pos r p) pos = some r := by
  simp [openAt, putOpen, withList]

theorem openAt_putOpen_ne {pos pos' : Fin 4} (h : pos ≠ pos') (r : JunctionRecord) (p : Part) :
    openAt (putOpen pos r p) pos' = openAt p pos' := by
  simp [openAt, putOpen, withList, Fin.val_ne_of_ne h]

@[simp] theorem getSource_putSource_self (snd : Sound) (x : Source) (v : SoundSource) :
    getSource (putSource snd x v) x = v := by
  cases x <;> rfl

theorem getSource_putSource_ne {x y : Source} (h : x ≠ y) (snd : Sound) (v : SoundSource) :
    getSource (putSource snd x v) y = getSource snd y := by
  cases x <;> cases y <;> first | rfl | exact absurd rfl h

@[simp] theorem tableAt_putTable_self (ts : TableStore) (t : TableId) (x : Table) :
    tableAt (putTable ts t x) t = x := by
  cases t <;> rfl

theorem tableAt_putTable_ne {t u : TableId} (h : t ≠ u) (ts : TableStore) (x : Table) :
    tableAt (putTable ts t x) u = tableAt ts u := by
  cases t <;> cases u <;> first | rfl | exact absurd rfl h

/-! ### Flags (R186) -/

/-- Setting a flag sets that flag and no other. -/
@[simp] theorem hasFlag_withFlag (flags : BitVec 26) (f g : Flag) :
    hasFlag (withFlag flags f) g = (hasFlag flags g || decide (f = g)) := by
  cases f <;> cases g <;> simp [hasFlag, withFlag, flagNumber]

@[simp] theorem hasFlag_zero (f : Flag) : hasFlag 0#26 f = false := by
  simp [hasFlag]

@[simp] theorem setFlagIf_false (f : Flag) (p : Part) : setFlagIf false f p = p := rfl

@[simp] theorem setFlagIf_true (f : Flag) (p : Part) : setFlagIf true f p = setFlag f p := rfl

/-! ### Rows (R68) -/

/-- A row set, or withdrawn, reads so, but for the LINE row, which is never withdrawn (R73). -/
theorem getRow_putRow_self (c : CapTable) {r : Row} (h : r ≠ .line) (v : Option Nat) :
    getRow (putRow c r v) r = v := by
  cases r <;> simp_all [getRow, putRow]

theorem getRow_putRow_ne (c : CapTable) {r r' : Row} (h : r ≠ r') (v : Option Nat) :
    getRow (putRow c r v) r' = getRow c r' := by
  cases r <;> cases r' <;> first
    | rfl
    | exact absurd rfl h
    | (rename_i pos pos'
       have hp : pos ≠ pos' := fun e => h (congrArg Row.junction e)
       simp [getRow, putRow, Fin.val_ne_of_ne hp])

/-- P and its source over some rows: at most what it started from and at most each of them, and its value
is that of its source. -/
theorem formP_spec (c : CapTable) (rs : List Row) (best : Nat × Row)
    (h : getRow c best.2 = some best.1) :
    (formP c rs best).1 ≤ best.1
      ∧ getRow c (formP c rs best).2 = some (formP c rs best).1
      ∧ ∀ r ∈ rs, ∀ v, getRow c r = some v → (formP c rs best).1 ≤ v := by
  induction rs generalizing best with
  | nil => exact ⟨Nat.le_refl _, h, by simp⟩
  | cons r rs ih =>
    unfold formP
    cases hr : getRow c r with
    | none =>
      obtain ⟨h1, h2, h3⟩ := ih best h
      refine ⟨h1, h2, fun r' hr' v hv => ?_⟩
      rcases List.mem_cons.mp hr' with rfl | hm
      · simp [hr] at hv
      · exact h3 r' hm v hv
    | some v =>
      by_cases hlt : v < best.1
      · obtain ⟨h1, h2, h3⟩ := ih (v, r) hr
        simp only [hlt, if_true]
        refine ⟨by simp at h1; omega, h2, fun r' hr' v' hv' => ?_⟩
        rcases List.mem_cons.mp hr' with rfl | hm
        · rw [hr] at hv'; cases hv'; exact h1
        · exact h3 r' hm v' hv'
      · obtain ⟨h1, h2, h3⟩ := ih best h
        simp only [hlt, if_false]
        refine ⟨h1, h2, fun r' hr' v' hv' => ?_⟩
        rcases List.mem_cons.mp hr' with rfl | hm
        · rw [hr] at hv'; cases hv'; omega
        · exact h3 r' hm v' hv'

/-! ### Word lists -/

@[simp] theorem padTo_length (n : Nat) (ws : List Word) : (padTo n ws).length = n := by
  induction n generalizing ws with
  | zero => rfl
  | succ n ih => cases ws <;> simp [padTo, ih]

theorem overwrite_length (ws : List Word) (start : Nat) (image : List Word)
    (h : start + image.length ≤ ws.length) : (overwrite ws start image).length = ws.length := by
  simp [overwrite]; omega

/-- Words outside the image stand. -/
theorem overwrite_outside (ws : List Word) (start : Nat) (image : List Word) (i : Nat)
    (hlen : start + image.length ≤ ws.length) (h : i < start ∨ start + image.length ≤ i) :
    (overwrite ws start image)[i]? = ws[i]? := by
  unfold overwrite
  rcases h with h | h
  · rw [List.append_assoc, List.getElem?_append_left (by simp; omega), List.getElem?_take]
    simp [h]
  · rw [List.getElem?_append_right (by simp; omega), List.getElem?_drop]
    congr 1; simp; omega

/-! ### The order of a cycle start's work (R9) -/

theorem firsts_mem (ws : List Work) (w : Work) : w ∈ firsts ws ↔ w ∈ ws := by
  induction ws with
  | nil => rfl
  | cons a ws ih =>
    by_cases h : w = a
    · simp [firsts, h]
    · simp [firsts, h, ih]

theorem firsts_nodup (ws : List Work) : (firsts ws).Nodup := by
  induction ws with
  | nil => exact List.nodup_nil
  | cons a ws ih => exact List.nodup_cons.mpr ⟨by simp, ih.filter _⟩

/-- Every piece of work is taken at a cycle start, once. -/
theorem schedule_complete (order : List Work) :
    (schedule order).Nodup ∧ ∀ w, w ∈ schedule order := by
  refine ⟨firsts_nodup _, fun w => (firsts_mem _ w).mpr ?_⟩
  cases w <;> simp [allWorks]

theorem idxOf_filter_ne (a v w : Work) (ws : List Work) (hv : v ≠ a) (hw : w ≠ a)
    (h : ws.idxOf v < ws.idxOf w) :
    (ws.filter (fun x => x != a)).idxOf v < (ws.filter (fun x => x != a)).idxOf w := by
  induction ws with
  | nil => simp at h
  | cons b ws ih =>
    by_cases hb : b = a
    · subst hb
      rw [List.filter_cons_of_neg (by simp)]
      rw [List.idxOf_cons_ne _ (Ne.symm hv), List.idxOf_cons_ne _ (Ne.symm hw)] at h
      exact ih (by omega)
    · rw [List.filter_cons_of_pos (by simpa using hb)]
      by_cases hbw : b = w
      · subst hbw; simp at h
      · by_cases hbv : b = v
        · subst hbv; rw [List.idxOf_cons_self, List.idxOf_cons_ne _ hbw]; omega
        · rw [List.idxOf_cons_ne _ hbv, List.idxOf_cons_ne _ hbw] at h ⊢
          have := ih (by omega); omega

/-- Members keep the order of their first occurrences. -/
theorem firsts_idxOf (ws : List Work) (v w : Work) (h : ws.idxOf v < ws.idxOf w) :
    (firsts ws).idxOf v < (firsts ws).idxOf w := by
  induction ws with
  | nil => simp at h
  | cons a ws ih =>
    rw [firsts]
    by_cases hw : a = w
    · subst hw; simp at h
    · by_cases hv : a = v
      · subst hv; rw [List.idxOf_cons_self, List.idxOf_cons_ne _ hw]; omega
      · rw [List.idxOf_cons_ne _ hv, List.idxOf_cons_ne _ hw] at h ⊢
        have := idxOf_filter_ne a v w _ (Ne.symm hv) (Ne.symm hw) (ih (by omega)); omega

/-- The works that the command names are taken in the order in which it names them, before the others. -/
theorem schedule_follows (order : List Work) (v w : Work) (h : order.idxOf v < order.idxOf w) :
    (schedule order).idxOf v < (schedule order).idxOf w := by
  have hv : v ∈ order := List.idxOf_lt_length_iff.mp (h.trans_le List.idxOf_le_length)
  refine firsts_idxOf _ _ _ ?_
  rw [List.idxOf_append_of_mem hv]
  by_cases hw : w ∈ order
  · rwa [List.idxOf_append_of_mem hw]
  · rw [List.idxOf_append_of_notMem hw]; have := List.idxOf_lt_length_iff.mpr hv; omega

/-- What every piece of work keeps, and the ageing of the records and steps keeps, a cycle start keeps. -/
theorem presentCycle_keeps (P : Part → Prop) (loss : Option LossChange) (order : List Work) (p : Part)
    (hage : P (ageAll p)) (hwork : ∀ cs w q, P q → P (doWork cs w q)) :
    P (presentCycle loss order p) := by
  unfold presentCycle
  generalize schedule order = ws
  generalize ageAll p = q at hage
  induction ws generalizing q with
  | nil => exact hage
  | cons w ws ih => exact ih _ (hwork _ w q hage)

/-! ### Acceptance (R172, R183) -/

theorem canAccept_iff (tag : Byte) (p : Part) :
    canAccept tag p = true ↔ p.line.state = .synchronised ∧ tag ≠ 0 := by
  simp [canAccept]

/-- The three outcomes of a command other than a lock command. -/
theorem accept_cases (tag code : Byte) (take : Part → Part) (p : Part) :
    (canAccept tag p = false ∧ accept tag code take p = p)
      ∨ (canAccept tag p = true ∧ p.tables.armed = false ∧ accept tag code take p = take p)
      ∨ (canAccept tag p = true ∧ p.tables.armed = true
          ∧ accept tag code take p = refuseSequence tag code (disarm p)) := by
  unfold accept
  cases canAccept tag p <;> cases p.tables.armed <;> simp

/-- The three outcomes of a lock command. -/
theorem acceptLock_cases (tag code : Byte) (take : Part → Part) (p : Part) :
    (canAccept tag p = false ∧ acceptLock tag code take p = p)
      ∨ (canAccept tag p = true ∧ p.tables.armed = true ∧ acceptLock tag code take p = take (disarm p))
      ∨ (canAccept tag p = true ∧ p.tables.armed = false
          ∧ acceptLock tag code take p = refuseSequence tag code p) := by
  unfold acceptLock
  cases canAccept tag p <;> cases p.tables.armed <;> simp

theorem accept_of_takes {tag : Byte} {p : Part} (h : Takes tag p) (code : Byte) (take : Part → Part) :
    accept tag code take p = take p := by
  have hc := (canAccept_iff tag p).mpr ⟨h.1, h.2.1⟩
  simp [accept, hc, h.2.2]

theorem acceptLock_of_takesLock {tag : Byte} {p : Part} (h : TakesLock tag p) (code : Byte)
    (take : Part → Part) : acceptLock tag code take p = take (disarm p) := by
  have hc := (canAccept_iff tag p).mpr ⟨h.1, h.2.1⟩
  simp [acceptLock, hc, h.2.2]

/-! ### Guarded events -/

theorem when_true {c : Part → Bool} {f : Part → Part} {s : State} (h : c s.part = true) :
    when c f s = .next { s with part := f s.part } := by
  simp [when, State.onPart, h]

theorem when_false {c : Part → Bool} {f : Part → Part} {s : State} (h : c s.part = false) :
    when c f s = .next s := by
  simp [when, State.onPart, h]

/-! ### The envelope (R90, R91) -/

/-- Strictly ascending: every breakpoint is followed by one of a greater speed. -/
theorem ascending_iff (bs : List Breakpoint) :
    ascending bs = true ↔ ∀ i a b, bs[i]? = some a → bs[i + 1]? = some b → a.s < b.s := by
  induction bs with
  | nil => simp [ascending]
  | cons x xs ih =>
    cases xs with
    | nil => simp [ascending]
    | cons y ys =>
      rw [ascending, Bool.and_eq_true, decide_eq_true_eq, ih]
      constructor
      · rintro ⟨h, k⟩ i a b ha hb
        cases i with
        | zero => cases ha; cases hb; exact h
        | succ i => exact k i a b ha hb
      · exact fun h => ⟨h 0 x y rfl rfl, fun i a b ha hb => h (i + 1) a b ha hb⟩

/-- Both parts of a list cut at a place are strictly ascending: no pair of neighbours but that across the cut
is out of order. -/
theorem ascending_split (bs : List Breakpoint) (k : Nat) :
    ascending (bs.take k) = true ∧ ascending (bs.drop k) = true ↔
      ∀ i a b, bs[i]? = some a → bs[i + 1]? = some b → i + 1 ≠ k → a.s < b.s := by
  simp only [ascending_iff, List.getElem?_take, List.getElem?_drop]
  constructor
  · rintro ⟨h, g⟩ i a b ha hb hk
    by_cases hi : i + 1 < k
    · exact h i a b (by rw [if_pos (by omega), ha]) (by rw [if_pos hi, hb])
    · obtain ⟨j, rfl⟩ : ∃ j, i = k + j := ⟨i - k, by omega⟩
      exact g j a b ha hb
  · refine fun h => ⟨fun i a b ha hb => ?_, fun i a b ha hb => h (k + i) a b ha hb (by omega)⟩
    split at hb
    · next hi => exact h i a b (by rwa [if_pos (by omega)] at ha) hb (by omega)
    · cases hb

/-- The test of the validity mark is R91's. -/
theorem envelopeIsValid_iff (p : Part) : envelopeIsValid p = true ↔ EnvelopeInOrder p := by
  have key : (ascending (regionN p) = true ∧ ascending (regionL p) = true) ↔
      ∀ i a b, (usedBreakpoints p)[i]? = some a → (usedBreakpoints p)[i + 1]? = some b →
        ¬ (envelopeSplit p < 16 ∧ envelopeSplit p < envelopeCount p ∧ i + 1 = envelopeSplit p) → a.s < b.s := by
    unfold regionN regionL
    by_cases hl : lowRegionExists p = true
    · have := hl
      simp only [lowRegionExists, Bool.and_eq_true, decide_eq_true_eq] at this
      rw [if_pos hl, if_pos hl, ascending_split]
      simp [this.1, this.2]
    · have h : ¬ (envelopeSplit p < 16 ∧ envelopeSplit p < envelopeCount p) := by
        simpa [lowRegionExists] using hl
      rw [if_neg hl, if_neg hl, ascending_iff]
      constructor
      · exact fun g i a b ha hb _ => g.1 i a b ha hb
      · exact fun g => ⟨fun i a b ha hb => g i a b ha hb (fun x => h ⟨x.1, x.2.1⟩), rfl⟩
  unfold envelopeIsValid EnvelopeInOrder
  simp only [Bool.and_eq_true, Bool.or_eq_true, decide_eq_true_eq, beq_iff_eq, and_assoc]
  rw [key]; rfl

/-- The mark recomputed shows the envelope valid exactly where it is (R91). -/
theorem markEnvelope_iff (p : Part) :
    (markEnvelope p).tables.envelopeValid = true ↔ EnvelopeInOrder (markEnvelope p) :=
  envelopeIsValid_iff p

/-! ### The DOORS row (R132, R133) -/

/-- One bitmap's zones are all in another. -/
theorem zones_subset (a b : Byte) :
    (a &&& ~~~b == 0) = true ↔ ∀ z : Fin 8, a.getLsbD z.val = true → b.getLsbD z.val = true := by
  rw [beq_iff_eq]
  constructor
  · intro h z hz
    have := congrArg (fun x : Byte => x.getLsbD z.val) h
    simpa [hz] using this
  · refine fun h => BitVec.eq_of_getLsbD_eq fun i hi => ?_
    have := h ⟨i, hi⟩
    simpa [hi] using this

/-- The row does not hold exactly with a door status that is not stale, every zone of zone_mask closed and
none released. -/
theorem doorsHold_false_iff (p : Part) :
    doorsHold p = false ↔ ∃ d, p.stop.door = some d ∧ hasFn p .doorStatus = true
      ∧ (recordAt p d.source).age ≤ doorStale p
      ∧ (∀ z : Fin 8, (zoneMask p).getLsbD z.val = true → d.closed.getLsbD z.val = true)
      ∧ d.released = 0 := by
  have hc : allClosed p = true ↔ ∀ z : Fin 8, (zoneMask p).getLsbD z.val = true →
      (closedZones p).getLsbD z.val = true := zones_subset _ _
  generalize ha : allClosed p = a at hc
  have hh : doorsHold p = (!a || releasedZones p != 0 || doorIsStale p) := by rw [← ha]; rfl
  rw [hh]
  cases hd : p.stop.door with
  | none => rw [show doorIsStale p = true by unfold doorIsStale; rw [hd]]; simp
  | some d =>
    rw [show closedZones p = d.closed by unfold closedZones; rw [hd]] at hc
    rw [show releasedZones p = d.released by unfold releasedZones; rw [hd],
      show doorIsStale p = (!hasFn p .doorStatus || decide (doorStale p < (recordAt p d.source).age)) by
        unfold doorIsStale; rw [hd]]
    have h4 := @Nat.not_lt (doorStale p) (recordAt p d.source).age
    simp only [Bool.or_eq_false_iff, Bool.not_eq_false', bne_eq_false_iff_eq, decide_eq_false_iff_not]
    constructor
    · exact fun h => ⟨d, rfl, h.2.1, h4.mp h.2.2, hc.mp h.1.1, h.1.2⟩
    · rintro ⟨d', e, k1, k2, k3, k4⟩
      cases e
      exact ⟨⟨hc.mpr k3, k4⟩, k1, h4.mpr k2⟩

/-- The test of the row sets it at 0 or withdraws it, and changes nothing else (R133). -/
theorem testDoors_eq (p : Part) :
    testDoors p = { p with caps := { p.caps with doors := if doorsHold p then some 0 else none } } := by
  unfold testDoors
  split <;> rfl

end Sys2Proof.Machine
end

