-- ==== Sys2Proof/Laws/Frames.lean ====
section
/-! SUPPORT. What the blocks leave alone. `UnitFrame p q` says that `q` differs from `p` in nothing that
belongs to the line, to the openings, to the node's own settings or to a locked table; every operation of
the cab authority, of the traction, junction, stop and sound units and of a cycle start's work keeps it. -/

namespace Sys2Proof.Machine

-- These short proofs wait on one another; elaborated one at a time they need one thread.
set_option Elab.async false

/-- From `p` to `q` the level of RESET_N, the node number, the lines, the line interface, the cells sent, the opening in
progress, the RESTRICT row, the lock sequence, every lock and the words of every locked table stand, and no
sticky flag is cleared. -/
structure UnitFrame (p q : Part) : Prop where
  resetN : q.resetN = p.resetN
  node : q.node = p.node
  lines : q.lines = p.lines
  line : q.line = p.line
  sentA : q.sentA = p.sentA
  sentB : q.sentB = p.sentB
  mark : q.slots.mark = p.slots.mark
  governing : q.slots.governing = p.slots.governing
  restrict : q.caps.restrict = p.caps.restrict
  armed : q.tables.armed = p.tables.armed
  lock : ∀ t, (tableAt q.tables t).lock = (tableAt p.tables t).lock
  words : ∀ t, (tableAt p.tables t).lock ≠ .unlocked →
    (tableAt q.tables t).words = (tableAt p.tables t).words
  flags : ∀ f, hasFlag p.mgmt.flags f = true → hasFlag q.mgmt.flags f = true

namespace UnitFrame

theorem refl (p : Part) : UnitFrame p p :=
  ⟨rfl, rfl, rfl, rfl, rfl, rfl, rfl, rfl, rfl, rfl, fun _ => rfl, fun _ _ => rfl, fun _ h => h⟩

theorem trans {p q r : Part} (a : UnitFrame p q) (b : UnitFrame q r) : UnitFrame p r where
  resetN := b.resetN.trans a.resetN
  node := b.node.trans a.node
  lines := b.lines.trans a.lines
  line := b.line.trans a.line
  sentA := b.sentA.trans a.sentA
  sentB := b.sentB.trans a.sentB
  mark := b.mark.trans a.mark
  governing := b.governing.trans a.governing
  restrict := b.restrict.trans a.restrict
  armed := b.armed.trans a.armed
  lock t := (b.lock t).trans (a.lock t)
  words t h := (b.words t (by rw [a.lock t]; exact h)).trans (a.words t h)
  flags f h := b.flags f (a.flags f h)

/-- An update of a block's own state. -/
theorem update {p q : Part} (resetN : q.resetN = p.resetN := by rfl)
    (node : q.node = p.node := by rfl) (lines : q.lines = p.lines := by rfl)
    (line : q.line = p.line := by rfl) (sentA : q.sentA = p.sentA := by rfl)
    (sentB : q.sentB = p.sentB := by rfl) (slots : q.slots = p.slots := by rfl)
    (restrict : q.caps.restrict = p.caps.restrict := by rfl) (tables : q.tables = p.tables := by rfl)
    (flags : ∀ f, hasFlag p.mgmt.flags f = true → hasFlag q.mgmt.flags f = true := by
      exact fun _ h => h) : UnitFrame p q where
  resetN := resetN
  node := node
  lines := lines
  line := line
  sentA := sentA
  sentB := sentB
  mark := by rw [slots]
  governing := by rw [slots]
  restrict := restrict
  armed := by rw [tables]
  lock t := by rw [tables]
  words t _ := by rw [tables]
  flags := flags

/-- A frame through either branch of a test. -/
theorem ite {p a b : Part} {c : Prop} [Decidable c] (ha : UnitFrame p a) (hb : UnitFrame p b) :
    UnitFrame p (if c then a else b) := by
  split
  · exact ha
  · exact hb

end UnitFrame

theorem foldl_unitFrame {α : Type} (f : Part → α → Part) (h : ∀ p x, UnitFrame p (f p x)) (xs : List α)
    (p : Part) : UnitFrame p (xs.foldl f p) := by
  induction xs generalizing p with
  | nil => exact .refl p
  | cons x xs ih => exact (h p x).trans (ih _)

/-! ### Shared operations -/

theorem setFlag_unitFrame (f : Flag) (p : Part) : UnitFrame p (setFlag f p) :=
  .update (flags := fun g h => by simp [h])

theorem setFlagIf_unitFrame (c : Bool) (f : Flag) (p : Part) : UnitFrame p (setFlagIf c f p) := by
  cases c
  · exact .refl p
  · exact setFlag_unitFrame f p

theorem setRow_unitFrame {r : Row} (h : r ≠ .restrict) (v : Nat) (p : Part) :
    UnitFrame p (setRow r v p) :=
  .update (restrict := by cases r <;> first | rfl | exact absurd rfl h)

theorem withdrawRow_unitFrame {r : Row} (h : r ≠ .restrict) (p : Part) :
    UnitFrame p (withdrawRow r p) :=
  .update (restrict := by cases r <;> first | rfl | exact absurd rfl h)

theorem respond_unitFrame (tag code : Byte) (x : Result) (ws : List Word) (p : Part) :
    UnitFrame p (respond tag code x ws p) := by
  unfold respond
  split
  · exact .update
  · exact setFlag_unitFrame _ _

/-! ### Sound unit -/

theorem withSound_unitFrame (snd : Sound) (p : Part) : UnitFrame p (withSound snd p) := .update

theorem request_unitFrame (x : Source) (p : Part) : UnitFrame p (request x p) := withSound_unitFrame _ _

theorem withdrawSource_unitFrame (x : Source) (p : Part) : UnitFrame p (withdrawSource x p) :=
  withSound_unitFrame _ _

theorem cutHorn_unitFrame (p : Part) : UnitFrame p (cutHorn p) :=
  .trans (q := { p with sound := { p.sound with horn := .stuck } }) .update (setFlag_unitFrame _ _)

theorem countHorn_unitFrame (wasOn : Bool) (p : Part) : UnitFrame p (countHorn wasOn p) := by
  unfold countHorn
  dsimp only
  split
  · split
    · exact .trans (q := { p with sound := { p.sound with
        hornCount := min 3000 (p.sound.hornCount + 1) } }) .update (cutHorn_unitFrame _)
    · split <;> exact .update
  · exact .refl p

theorem soundCycle_unitFrame (p : Part) : UnitFrame p (soundCycle p) :=
  (withSound_unitFrame _ p).trans (countHorn_unitFrame _ _)

theorem soundOff_unitFrame (p : Part) : UnitFrame p (soundOff p) := .update

theorem soundHold_unitFrame (p : Part) : UnitFrame p (soundHold p) := withdrawSource_unitFrame _ p

/-! ### Stop unit -/

theorem testDoors_unitFrame (p : Part) : UnitFrame p (testDoors p) :=
  .ite (setRow_unitFrame (by decide) 0 p) (withdrawRow_unitFrame (by decide) p)

theorem changeToAtStop_unitFrame (p : Part) : UnitFrame p (changeToAtStop p) :=
  .trans .update (withdrawSource_unitFrame _ _)

theorem changeToRunning_unitFrame (p : Part) : UnitFrame p (changeToRunning p) :=
  .ite (.trans .update (request_unitFrame _ _)) .update

theorem tripPhase_unitFrame (p : Part) : UnitFrame p (tripPhase p) := by
  unfold tripPhase
  split
  · exact .ite (changeToAtStop_unitFrame p) (.refl p)
  · exact .ite (changeToRunning_unitFrame p) (.refl p)

theorem doorStore_unitFrame (source : Fin 82) (r : SlotRecord) (p : Part) :
    UnitFrame p (doorStore source r p) := by
  have h : ∀ q, UnitFrame q (advanceAssistances (clearDoorOpen (tripPhase q))) := fun q =>
    (tripPhase_unitFrame q).trans .update
  refine .trans ?_ (testDoors_unitFrame _)
  exact .ite (.trans .update (h _)) .update

theorem askForStop_unitFrame (z : Fin 8) (p : Part) : UnitFrame p (askForStop z p) := by
  unfold askForStop
  exact .ite .update (.trans .update (request_unitFrame _ _))

theorem stopPush_unitFrame (z : Fin 8) (p : Part) : UnitFrame p (stopPush z p) :=
  .ite (askForStop_unitFrame z p) (.ite .update (.refl p))

theorem assistancePush_unitFrame (z : Fin 8) (p : Part) : UnitFrame p (assistancePush z p) :=
  (stopPush_unitFrame z p).trans (.trans .update (request_unitFrame _ _))

theorem buttonStore_unitFrame (r : SlotRecord) (p : Part) : UnitFrame p (buttonStore r p) := by
  unfold buttonStore
  refine .ite (.ite (.trans ?_ (assistancePush_unitFrame _ _))
    (.ite (.trans ?_ (stopPush_unitFrame _ _)) ?_)) ?_ <;> exact .update

theorem stopTeardown_unitFrame (p : Part) : UnitFrame p (stopTeardown p) := .update

/-! ### Junction unit -/

theorem withList_unitFrame (x : Vector (Option JunctionRecord) 4) (p : Part) :
    UnitFrame p (withList x p) := .update

theorem putOpen_unitFrame (pos : Fin 4) (r : JunctionRecord) (p : Part) : UnitFrame p (putOpen pos r p) :=
  withList_unitFrame _ _

theorem enterFault_unitFrame (pos : Fin 4) (r : JunctionRecord) (x : JunctionFault) (p : Part) :
    UnitFrame p (enterFault pos r x p) :=
  ((putOpen_unitFrame _ _ p).trans (setRow_unitFrame (by nofun) 0 _)).trans (request_unitFrame _ _)

theorem appendRelease_unitFrame (x : Release) (p : Part) : UnitFrame p (appendRelease x p) :=
  .ite .update (.trans .update (setFlag_unitFrame _ _))

theorem closeRecord_unitFrame (pos : Fin 4) (r : JunctionRecord) (p : Part) :
    UnitFrame p (closeRecord pos r p) := by
  unfold closeRecord
  have h := withdrawRow_unitFrame (r := .junction pos) (by nofun) p
  exact .trans (.ite (h.trans (appendRelease_unitFrame _ _)) h) (withList_unitFrame _ _)

theorem overflowList_unitFrame (p : Part) : UnitFrame p (overflowList p) :=
  (setRow_unitFrame (r := .overflow) (by nofun) 0 p).trans (.trans .update (request_unitFrame _ _))

theorem openRecord_unitFrame (pos : Fin 4) (j : Six) (e : RouteEntry) (p : Part) :
    UnitFrame p (openRecord pos j e p) :=
  .ite ((putOpen_unitFrame _ _ p).trans (setRow_unitFrame (by nofun) _ _)) (enterFault_unitFrame _ _ _ p)

theorem requestMarker_unitFrame (j : Six) (e : RouteEntry) (p : Part) :
    UnitFrame p (requestMarker j e p) := by
  unfold requestMarker
  split
  · exact .refl p
  · split
    · exact overflowList_unitFrame p
    · exact openRecord_unitFrame _ _ _ p

theorem commitMarker_unitFrame (j : Six) (p : Part) : UnitFrame p (commitMarker j p) := by
  unfold commitMarker
  split
  · exact setFlag_unitFrame _ p
  · split
    · exact .refl p
    · split
      · exact putOpen_unitFrame _ _ p
      · exact .refl p
      · exact .refl p
      · exact enterFault_unitFrame _ _ _ p
      · exact enterFault_unitFrame _ _ _ p

theorem clearMarker_unitFrame (j : Six) (p : Part) : UnitFrame p (clearMarker j p) := by
  unfold clearMarker
  split
  · exact .refl p
  · split
    · exact .refl p
    · exact closeRecord_unitFrame _ _ p

theorem newMarker_unitFrame (id : Nat) (p : Part) : UnitFrame p (newMarker id p) := by
  unfold newMarker
  split
  · exact setFlag_unitFrame _ p
  · refine .ite ?_ (setFlag_unitFrame _ p)
    split
    · exact requestMarker_unitFrame _ _ p
    · exact commitMarker_unitFrame _ p
    · exact clearMarker_unitFrame _ p

theorem markersMissed_unitFrame (p : Part) : UnitFrame p (markersMissed p) :=
  (setFlag_unitFrame _ p).trans (request_unitFrame _ _)

theorem markerStore_unitFrame (r : SlotRecord) (p : Part) : UnitFrame p (markerStore r p) := by
  unfold markerStore
  dsimp only
  split
  · exact .update
  · exact .ite .update (.ite (.trans .update (newMarker_unitFrame _ _))
      (.trans (.trans .update (markersMissed_unitFrame _)) (newMarker_unitFrame _ _)))

theorem selectFor_unitFrame (p : Part) (pos : Fin 4) : UnitFrame p (selectFor p pos) := by
  unfold selectFor
  split
  · exact .refl p
  · refine .ite (.refl p) ?_
    have h := fun r => (putOpen_unitFrame pos r p)
    split <;> first
      | exact setFlag_unitFrame _ p
      | exact .ite ((h _).trans (setRow_unitFrame (by nofun) _ _)) (.refl p)

theorem select_unitFrame (x : BitVec 4) (p : Part) : UnitFrame p (select x p) :=
  .ite .update (.trans .update (foldl_unitFrame _ selectFor_unitFrame _ _))

theorem routeSelectStore_unitFrame (i : Fin 82) (r : SlotRecord) (p : Part) :
    UnitFrame p (routeSelectStore i r p) := .trans .update (select_unitFrame _ _)

theorem testSelection_unitFrame (p : Part) : UnitFrame p (testSelection p) :=
  .ite (select_unitFrame 0 p) (.refl p)

theorem reportRequested_unitFrame (x : PointReport) (pos : Fin 4) (r : JunctionRecord) (route : Route)
    (p : Part) : UnitFrame p (reportRequested x pos r route p) :=
  .ite ((putOpen_unitFrame _ _ p).trans (setRow_unitFrame (by nofun) _ _)) (putOpen_unitFrame _ _ p)

theorem reportAt_unitFrame (x : PointReport) (p : Part) (pos : Fin 4) :
    UnitFrame p (reportAt x p pos) := by
  unfold reportAt
  split
  · exact .refl p
  · dsimp only
    split
    · exact .refl p
    · refine .ite ?_ (.refl p)
      split
      · exact reportRequested_unitFrame _ _ _ _ p
      · exact .ite (enterFault_unitFrame _ _ _ p) (.refl p)
      · exact .ite ((setFlag_unitFrame _ p).trans (request_unitFrame _ _)) (.refl p)
      · exact .refl p

theorem pointStore_unitFrame (r : SlotRecord) (p : Part) : UnitFrame p (pointStore r p) :=
  .ite (foldl_unitFrame _ (reportAt_unitFrame _) _ p) (.refl p)

theorem timeOut_unitFrame (pos : Fin 4) (p : Part) : UnitFrame p (timeOut pos p) := by
  unfold timeOut
  split
  · exact enterFault_unitFrame _ _ _ p
  · exact .refl p

theorem countRequest_unitFrame (p : Part) (pos : Fin 4) : UnitFrame p (countRequest p pos) := by
  unfold countRequest
  split
  · exact .ite (.ite ((putOpen_unitFrame _ _ p).trans (timeOut_unitFrame _ _))
      (putOpen_unitFrame _ _ p)) (.refl p)
  · exact .refl p

theorem addDistance_unitFrame (delta : Nat) (p : Part) (pos : Fin 4) :
    UnitFrame p (addDistance delta p pos) := by
  unfold addDistance
  split
  · exact .ite (.ite ((putOpen_unitFrame _ _ p).trans (closeRecord_unitFrame _ _ _))
      (putOpen_unitFrame _ _ p)) (.refl p)
  · exact .refl p

theorem takeDistance_unitFrame (delta : Nat) (p : Part) : UnitFrame p (takeDistance delta p) :=
  .ite (.refl p) <| foldl_unitFrame _ (addDistance_unitFrame delta) _ p

theorem junctionAck_unitFrame (p : Part) : UnitFrame p (junctionAck p) :=
  .ite ((withdrawRow_unitFrame (r := .overflow) (by nofun) p).trans .update) (.refl p)

theorem junctionCycle_unitFrame (p : Part) : UnitFrame p (junctionCycle p) := by
  unfold junctionCycle
  refine .trans (.trans ?_ (testSelection_unitFrame _)) (foldl_unitFrame _ countRequest_unitFrame _ _)
  exact .ite (.trans .update (junctionAck_unitFrame _)) .update

theorem giveSet_unitFrame (pos : Fin 4) (p : Part) : UnitFrame p (giveSet pos p).1 := by
  unfold giveSet
  split
  · exact .refl p
  · next r _ =>
    refine .trans (putOpen_unitFrame pos { r with setSent := true } p) ?_
    exact .update

theorem nextItem_unitFrame (p : Part) : UnitFrame p (nextItem p).1 := by
  unfold nextItem
  split
  · exact .update
  · split
    · exact giveSet_unitFrame _ p
    · exact .refl p

theorem discard_unitFrame (p : Part) (pos : Fin 4) : UnitFrame p (discard p pos) := by
  unfold discard
  split
  · exact .refl p
  · exact ((UnitFrame.ite (appendRelease_unitFrame _ p) (.refl p)).trans
      (withdrawRow_unitFrame (by nofun) _)).trans (withList_unitFrame _ _)

theorem junctionTeardown_unitFrame (p : Part) : UnitFrame p (junctionTeardown p) := by
  have h : UnitFrame p (withdrawRow .overflow (positions.foldl discard p)) :=
    (foldl_unitFrame _ discard_unitFrame _ p).trans (withdrawRow_unitFrame (by nofun) _)
  unfold junctionTeardown
  generalize withdrawRow .overflow (positions.foldl discard p) = q at h
  refine .trans (.trans (h.trans (r := { q with sound := { q.sound with
    overflow := if p.caps.overflow.isSome then false else q.sound.overflow } }) .update)
    (setFlagIf_unitFrame _ _ _)) .update

/-! ### Traction unit -/

theorem handleRange_unitFrame (r : SlotRecord) (p : Part) : UnitFrame p (handleRange r p) :=
  setFlagIf_unitFrame _ _ p

theorem speedStore_unitFrame (r : SlotRecord) (p : Part) : UnitFrame p (speedStore r p) :=
  ((setFlagIf_unitFrame _ _ p).trans (setFlagIf_unitFrame _ _ _)).trans
    (.trans .update (takeDistance_unitFrame _ _))

theorem setLockRow_unitFrame (p : Part) : UnitFrame p (setLockRow p) :=
  .ite (setRow_unitFrame (by nofun) _ p) (.refl p)

theorem speedGoesStale_unitFrame (p : Part) : UnitFrame p (speedGoesStale p) :=
  .trans .update (setLockRow_unitFrame _)

theorem speedLocks_unitFrame (p : Part) : UnitFrame p (speedLocks p) :=
  .trans .update (withdrawRow_unitFrame (by nofun) _)

theorem updateLock_unitFrame (p : Part) : UnitFrame p (updateLock p) :=
  .ite (.ite (.refl p) (speedGoesStale_unitFrame p))
    (.ite (.ite (.trans .update (speedLocks_unitFrame _)) .update) .update)

theorem speedInput_unitFrame (p : Part) : UnitFrame p (speedInput p) :=
  .ite (.refl p) (.trans (.ite .update (.refl p)) (updateLock_unitFrame _))

theorem judgeInputs_unitFrame (p : Part) : UnitFrame p (judgeInputs p) :=
  ((setFlagIf_unitFrame _ _ p).trans (setFlagIf_unitFrame _ _ _)).trans .update

theorem judgeEnvelope_unitFrame (p : Part) : UnitFrame p (judgeEnvelope p) :=
  .ite ((setFlagIf_unitFrame _ _ p).trans .update) (.refl p)

theorem beginEpisode_unitFrame (p : Part) : UnitFrame p (beginEpisode p) :=
  (setFlag_unitFrame _ p).trans (.trans .update (request_unitFrame _ _))

theorem judgeEpisode_unitFrame (p : Part) : UnitFrame p (judgeEpisode p) :=
  .ite (.ite .update (.ite (beginEpisode_unitFrame p) (.refl p))) (.refl p)

theorem evaluate_unitFrame (p : Part) : UnitFrame p (evaluate p) :=
  (((judgeInputs_unitFrame p).trans (judgeEnvelope_unitFrame _)).trans (judgeEpisode_unitFrame _)).trans
    .update

theorem tractionActivates_unitFrame (p : Part) : UnitFrame p (tractionActivates p) :=
  .trans (.ite (.refl p) (setRow_unitFrame (by nofun) _ p)) (evaluate_unitFrame _)

theorem endAlarms_unitFrame (p : Part) : UnitFrame p (endAlarms p) := .update

theorem tractionReturns_unitFrame (p : Part) : UnitFrame p (tractionReturns p) :=
  .trans .update (withdrawRow_unitFrame (by nofun) _)

theorem tractionHolds_unitFrame (p : Part) : UnitFrame p (tractionHolds p) :=
  (endAlarms_unitFrame p).trans .update

theorem tractionResumes_unitFrame (p : Part) : UnitFrame p (tractionResumes p) := by
  unfold tractionResumes
  split
  · exact .refl p
  · exact .trans .update (setRow_unitFrame (by nofun) _ _)

theorem tractionTeardown_unitFrame (p : Part) : UnitFrame p (tractionTeardown p) :=
  ((endAlarms_unitFrame p).trans (tractionReturns_unitFrame _)).trans .update

/-! ### Cab authority -/

theorem activationEnds_unitFrame (p : Part) : UnitFrame p (activationEnds p) :=
  .trans .update ((tractionReturns_unitFrame _).trans (soundOff_unitFrame _))

theorem activationFails_unitFrame (x : FaultCause) (st : Stage) (t : Option TableId) (p : Part) :
    UnitFrame p (activationFails x st t p) :=
  (setFlag_unitFrame _ p).trans (.trans .update (activationEnds_unitFrame _))

theorem activationYields_unitFrame (p : Part) : UnitFrame p (activationYields p) :=
  (setFlag_unitFrame _ p).trans (activationEnds_unitFrame _)

theorem beginActivation_unitFrame (n : Nat) (p : Part) : UnitFrame p (beginActivation n p) :=
  .trans .update (tractionActivates_unitFrame _)

theorem attempt_unitFrame (p : Part) : UnitFrame p (attempt p) :=
  .ite (beginActivation_unitFrame _ p) (.trans .update (setFlag_unitFrame _ _))

theorem attemptIfDue_unitFrame (p : Part) : UnitFrame p (attemptIfDue p) :=
  .ite (attempt_unitFrame p) (.refl p)

theorem leaveStabled_unitFrame (p : Part) : UnitFrame p (leaveStabled p) :=
  .ite (.ite (beginActivation_unitFrame _ p) (.trans .update (setFlag_unitFrame _ _))) .update

theorem leaveStabledIfDue_unitFrame (p : Part) : UnitFrame p (leaveStabledIfDue p) :=
  .ite (leaveStabled_unitFrame p) (.refl p)

theorem teardown_unitFrame (p : Part) : UnitFrame p (teardown p) :=
  .trans (.trans (.trans (.trans (.trans .update (setRow_unitFrame (r := .cab) (by nofun) 0 _))
    (junctionTeardown_unitFrame _)) (stopTeardown_unitFrame _)) (soundOff_unitFrame _))
    (tractionTeardown_unitFrame _)

theorem enterHold_unitFrame (p : Part) : UnitFrame p (enterHold p) :=
  .trans (.trans (.trans .update (setRow_unitFrame (r := .cab) (by nofun) 0 _)) (tractionHolds_unitFrame _))
    (soundHold_unitFrame _)

theorem returnFromHold_unitFrame (p : Part) : UnitFrame p (returnFromHold p) :=
  .trans (.trans .update (withdrawRow_unitFrame (r := .cab) (by nofun) _)) (tractionResumes_unitFrame _)

theorem takeExit_unitFrame (p : Part) : UnitFrame p (takeExit p) := by
  unfold takeExit
  split <;> first
    | exact enterHold_unitFrame p
    | exact teardown_unitFrame p
    | exact .refl p

theorem presentEvaluation_unitFrame (p : Part) : UnitFrame p (presentEvaluation p) :=
  .ite (takeExit_unitFrame p) (.refl p)

theorem keyLeavesDrive_unitFrame (x : PendingExit) (p : Part) : UnitFrame p (keyLeavesDrive x p) :=
  .ite (.ite (.trans .update (takeExit_unitFrame _))
    (.trans (.trans .update (setRow_unitFrame (r := .cab) (by nofun) 0 _)) (setFlag_unitFrame _ _))) .update

theorem keyReturnsToDrive_unitFrame (p : Part) : UnitFrame p (keyReturnsToDrive p) :=
  .ite (.refl p) (.trans .update (withdrawRow_unitFrame (r := .cab) (by nofun) _))

theorem keyRecognised_unitFrame (k : Key) (p : Part) : UnitFrame p (keyRecognised k p) := by
  unfold keyRecognised
  split
  · exact .trans .update (attemptIfDue_unitFrame _)
  · exact .ite (.refl p) (activationEnds_unitFrame p)
  · exact .ite (keyReturnsToDrive_unitFrame p) (keyLeavesDrive_unitFrame _ p)
  · split
    · exact returnFromHold_unitFrame p
    · exact teardown_unitFrame p
    · exact .refl p
  · exact .ite (.trans .update (leaveStabledIfDue_unitFrame _)) (.ite .update (.refl p))

theorem deskCycle_unitFrame (p : Part) : UnitFrame p (deskCycle p) :=
  .ite (.trans .update (keyRecognised_unitFrame _ _)) .update

theorem conflictInActive_unitFrame (v : CabState) (p : Part) : UnitFrame p (conflictInActive v p) :=
  .ite (.refl p) ((setFlag_unitFrame _ p).trans (request_unitFrame _ _))

theorem viewChanged_unitFrame (v : CabState) (p : Part) : UnitFrame p (viewChanged v p) := by
  unfold viewChanged
  split
  · split <;> first
      | exact activationYields_unitFrame p
      | exact .ite (activationYields_unitFrame p) (.refl p)
      | exact .refl p
  · exact conflictInActive_unitFrame v p
  · exact .ite (.refl p) (setFlag_unitFrame _ p)
  · exact .refl p
  · exact .refl p

theorem takeView_unitFrame (v : CabState) (p : Part) : UnitFrame p (takeView v p) :=
  .ite (.refl p) (.trans .update (viewChanged_unitFrame _ _))

theorem deriveView_unitFrame (p : Part) : UnitFrame p (deriveView p) := takeView_unitFrame _ p

theorem enterActive_unitFrame (p : Part) : UnitFrame p (enterActive p) := by
  unfold enterActive
  refine .trans ?_ (conflictInActive_unitFrame _ _)
  dsimp only
  refine .trans ?_ (q := if departureWarning p = true then _ else _) .update
  have h : UnitFrame p (withdrawRow .cab { p with cab := { p.cab with
      state := .active, stage := .none, table := none, count := 0, pending := .none } }) :=
    .trans .update (withdrawRow_unitFrame (r := .cab) (by nofun) _)
  exact .ite (h.trans (request_unitFrame _ _)) h

theorem checkTable_unitFrame (t : TableId) (p : Part) : UnitFrame p (checkTable t p) := by
  unfold checkTable
  refine .ite (activationFails_unitFrame _ _ _ p) (.ite (activationFails_unitFrame _ _ _ p) ?_)
  split <;> exact .update

theorem stageCycle_unitFrame (p : Part) : UnitFrame p (stageCycle p) := by
  unfold stageCycle
  split
  · exact .refl p
  · exact .ite .update .update
  · split
    · exact checkTable_unitFrame _ p
    · exact .refl p
  · exact .ite (.trans .update (activationFails_unitFrame _ _ _ _)) .update
  · exact .ite (.ite (.trans .update (enterActive_unitFrame _)) .update) .update

theorem brakeTestStore_unitFrame (r : SlotRecord) (p : Part) : UnitFrame p (brakeTestStore r p) :=
  .ite .update (.refl p)

theorem tableChanged_unitFrame (t : TableId) (p : Part) : UnitFrame p (tableChanged t p) :=
  .ite (activationFails_unitFrame _ _ _ p) (.refl p)

theorem presentLoss_unitFrame (x : Option LossChange) (p : Part) : UnitFrame p (presentLoss x p) := by
  unfold presentLoss
  split
  · exact .refl p
  · exact .ite (activationFails_unitFrame _ _ _ p) (.refl p)
  · exact (attemptIfDue_unitFrame p).trans (leaveStabledIfDue_unitFrame _)

/-- A change of a table's words, sum and mark, which needs the table unlocked where its words change. -/
theorem putTable_unitFrame (t : TableId) (x : Table) (p : Part)
    (hlock : x.lock = (tableAt p.tables t).lock)
    (hwords : (tableAt p.tables t).lock ≠ .unlocked → x.words = (tableAt p.tables t).words) :
    UnitFrame p { p with tables := putTable p.tables t x } where
  resetN := rfl
  node := rfl
  lines := rfl
  line := rfl
  sentA := rfl
  sentB := rfl
  mark := rfl
  governing := rfl
  restrict := rfl
  armed := by cases t <;> rfl
  lock u := by
    by_cases h : t = u
    · subst h; simpa using hlock
    · rw [tableAt_putTable_ne h]
  words u hu := by
    by_cases h : t = u
    · subst h; simpa using hwords hu
    · rw [tableAt_putTable_ne h]
  flags _ h := h

theorem scrubTable_unitFrame (t : TableId) (p : Part) : UnitFrame p (scrubTable t p) := by
  have h : ∀ (q : Part) (c : Bool) (x : Option TableId),
      UnitFrame q { q with
        tables := if c then putTable q.tables t { tableAt q.tables t with faulty := true } else q.tables
        cab := { q.cab with scrubPass := x } } := by
    intro q c x
    cases c
    · exact .update
    · exact .trans (putTable_unitFrame t { tableAt q.tables t with faulty := true } q rfl
        (fun _ => rfl)) .update
  exact .trans (setFlagIf_unitFrame (!sumMatches (tableAt p.tables t)) .tableFault p) (h _ _ _)

theorem scrubCycle_unitFrame (p : Part) : UnitFrame p (scrubCycle p) := by
  unfold scrubCycle
  refine .ite ?_ (.refl p)
  dsimp only
  split
  · exact .trans .update ((scrubTable_unitFrame _ _).trans (leaveStabledIfDue_unitFrame _))
  · exact .ite (.trans .update (scrubTable_unitFrame _ _)) .update

/-! ### Table store -/

theorem markEnvelope_unitFrame (p : Part) : UnitFrame p (markEnvelope p) :=
  ⟨rfl, rfl, rfl, rfl, rfl, rfl, rfl, rfl, rfl, rfl, fun t => by cases t <;> rfl,
    fun t _ => by cases t <;> rfl, fun _ h => h⟩

theorem putRecord_unitFrame (i : Fin 82) (r : SlotRecord) (p : Part) : UnitFrame p (putRecord i r p) :=
  ⟨rfl, rfl, rfl, rfl, rfl, rfl, rfl, rfl, rfl, rfl, fun _ => rfl, fun _ _ => rfl, fun _ h => h⟩

theorem presentChange_unitFrame (t : TableId) (i : Nat) (p : Part) :
    UnitFrame p (presentChange t i p) := by
  unfold presentChange
  split
  · unfold clearEntryRecord
    split
    · exact putRecord_unitFrame _ _ p
    · exact .refl p
  · exact markEnvelope_unitFrame p
  · exact ((setRow_unitFrame (r := .line) (by nofun) _ p).trans (markEnvelope_unitFrame _)).trans
      (testDoors_unitFrame _)
  · exact .refl p
  · exact .refl p
  · exact .refl p

/-- A committed change to an unlocked table. -/
theorem commit_unitFrame (t : TableId) (i : Nat) (ws : List Word) (p : Part)
    (h : (tableAt p.tables t).lock = .unlocked) : UnitFrame p (commit t i ws p) :=
  ((putTable_unitFrame t (committed t i ws (tableAt p.tables t)) p rfl (fun hl => absurd h hl)).trans
    (presentChange_unitFrame t i _)).trans (tableChanged_unitFrame t _)

/-- A write that passes its gates finds the table unlocked (R174). -/
theorem writeGate_none_unlocked {t : TableId} {i : Nat} {p : Part} (h : writeGate t i p = none) :
    (tableAt p.tables t).lock = .unlocked := by
  by_contra hl
  simp [writeGate, hl] at h

theorem completeOne_unitFrame (x : Transfer) (p : Part) : UnitFrame p (completeOne x p) := by
  unfold completeOne
  split
  · exact respond_unitFrame _ _ _ _ p
  · next h =>
    exact (commit_unitFrame _ _ _ p (writeGate_none_unlocked h)).trans (respond_unitFrame _ _ _ _ _)

/-- The staging state moves on with the tables, the locks and the lock sequence as they are. -/
theorem advanceStaging_unitFrame (p : Part) :
    UnitFrame p { p with tables := advanceStaging p.tables } := by
  have h : (advanceStaging p.tables).armed = p.tables.armed
      ∧ ∀ t, tableAt (advanceStaging p.tables) t = tableAt p.tables t := by
    unfold advanceStaging
    split
    · exact ⟨rfl, fun _ => rfl⟩
    · exact ⟨rfl, fun t => by cases t <;> rfl⟩
    · exact ⟨rfl, fun t => by cases t <;> rfl⟩
  exact ⟨rfl, rfl, rfl, rfl, rfl, rfl, rfl, rfl, rfl, h.1, fun t => by rw [h.2 t],
    fun t _ => by rw [h.2 t], fun _ hf => hf⟩

theorem completeTransfer_unitFrame (p : Part) : UnitFrame p (completeTransfer p) := by
  unfold completeTransfer
  split
  · exact .refl p
  · exact (completeOne_unitFrame _ p).trans (advanceStaging_unitFrame _)

theorem sampleDepot_unitFrame (p : Part) : UnitFrame p (sampleDepot p) :=
  ⟨rfl, rfl, rfl, rfl, rfl, rfl, rfl, rfl, rfl, rfl, fun t => by cases t <;> rfl,
    fun t _ => by cases t <;> rfl, fun _ h => h⟩

theorem tableStoreCycle_unitFrame (p : Part) : UnitFrame p (tableStoreCycle p) :=
  (sampleDepot_unitFrame p).trans (completeTransfer_unitFrame _)

/-! ### A cycle start -/

theorem ageAll_unitFrame (p : Part) : UnitFrame p (ageAll p) :=
  ⟨rfl, rfl, rfl, rfl, rfl, rfl, rfl, rfl, rfl, rfl, fun _ => rfl, fun _ _ => rfl, fun _ h => h⟩

theorem tractionInputs_unitFrame (cs : CycleStart) (p : Part) : UnitFrame p (tractionInputs cs p) :=
  .ite .update (.trans .update (speedInput_unitFrame _))

theorem tractionCycle_unitFrame (cs : CycleStart) (p : Part) : UnitFrame p (tractionCycle cs p) :=
  have h := tractionInputs_unitFrame cs p
  .ite (h.trans ((evaluate_unitFrame _).trans (presentEvaluation_unitFrame _))) h

theorem doWork_unitFrame (cs : CycleStart) (w : Work) (p : Part) : UnitFrame p (doWork cs w p) := by
  cases w with
  | lineLoss => exact presentLoss_unitFrame _ p
  | cabDesk => exact deskCycle_unitFrame p
  | cabView => exact deriveView_unitFrame p
  | cabStage => exact .ite (stageCycle_unitFrame p) (.refl p)
  | cabScrub => exact scrubCycle_unitFrame p
  | traction => exact tractionCycle_unitFrame cs p
  | junction => exact junctionCycle_unitFrame p
  | stop => exact testDoors_unitFrame p
  | sound => exact soundCycle_unitFrame p
  | tableStore => exact tableStoreCycle_unitFrame p

/-- A cycle start's work leaves the line, the openings, the locks and the locked tables alone (R9). -/
theorem presentCycle_unitFrame (loss : Option LossChange) (order : List Work) (p : Part) :
    UnitFrame p (presentCycle loss order p) :=
  presentCycle_keeps (UnitFrame p) loss order p (ageAll_unitFrame p)
    (fun cs w _ h => h.trans (doWork_unitFrame cs w _))

/-! ### A store given to its block -/

/-- A store given to the block of its function leaves the line, the openings, the locks, the locked tables
and the RESTRICT row alone, but for function MGMT_IN, whose cell can be a command (R24). -/
theorem deliver_unitFrame (index : Fin 82) {fn : Fn} (h : fn ≠ .mgmtIn) (kind : Kind) (r : SlotRecord)
    (p : Part) : UnitFrame p (deliver index fn kind r p) := by
  cases fn with
  | handle => exact (handleRange_unitFrame r p).trans (brakeTestStore_unitFrame r _)
  | speed => exact speedStore_unitFrame r p
  | marker => exact markerStore_unitFrame r p
  | routeSelect => exact routeSelectStore_unitFrame index r p
  | pointStatus => exact pointStore_unitFrame r p
  | stopButton => exact buttonStore_unitFrame r p
  | doorStatus => exact doorStore_unitFrame index r p
  | otherCab => exact deriveView_unitFrame p
  | mgmtIn => exact absurd rfl h
  | _ => exact .refl p

end Sys2Proof.Machine
end

