-- ==== Sys2Proof/WellFormed.lean ====
section
/-! DEFINITION. Which terms of `Instr` a car line or a desk can produce. -/

namespace Sys2Proof

/-- The command codes that name a command (the table of chapter 10: codes 1 to 16). -/
def namesCommand (code : Byte) : Bool := 1 ≤ code.toNat && code.toNat ≤ 16

/-- A command of the management node carries a tag from 1 to 255 (R183), five argument words where it
carries words (words 3 to 7, section 11.4), and an unknown command a code that names no command. An
arriving cell has a word, and a cycle start's order names no work twice. -/
def WellFormed : Instr → Bool
  | .powerOnReset _ => true
  | .cellArrival _ words _ order => words != [] && decide order.Nodup
  | .substituteCycleStart _ order => decide order.Nodup
  | .slotOpening | .laneDown | .laneUp | .otherCabTimeout | .activationAttempt | .settleComplete
  | .brakeTimeout | .entryToActive | .pendingExitTaken | .scrubPassBegin | .stabledExit
  | .speedSourceStale | .speedLockAcquired | .selectionTimeout | .requestTimeout _
  | .doorStatusStale | .phaseEnd _ | .stepEnd _ | .hornMinReached | .hornStuck
  | .transferCompletion => true
  | .status tag _ => tag != 0
  | .clearStatus tag => tag != 0
  | .writeStage tag _ _ words => tag != 0 && words.length == 5
  | .transfer tag _ _ => tag != 0
  | .readEntry tag _ _ _ => tag != 0
  | .envelopePointer tag _ => tag != 0
  | .envelopeData tag _ values => tag != 0 && values.length == 5
  | .lockSetup tag => tag != 0
  | .lock tag _ => tag != 0
  | .unlock tag _ => tag != 0
  | .lockDown tag _ => tag != 0
  | .setRestriction tag _ _ => tag != 0
  | .readRecord tag _ _ => tag != 0
  | .stable tag => tag != 0
  | .wake tag => tag != 0
  | .restart tag _ => tag != 0
  | .unknownCommand tag code => tag != 0 && !namesCommand code

end Sys2Proof
end

