-- ==== Sys2Proof/Laws/PerInstr.lean ====
section
/-! SUPPORT. What holds of every command as syntax: the tags and codes that well-formed commands carry. -/

namespace Sys2Proof.Laws

set_option Elab.async false

open Sys2Proof Sys2Proof.Machine

/-- A command that names itself by a code 1 to 16 (section 11.4). -/
def isNamed : Instr → Bool
  | .unknownCommand _ _ => false
  | c => (managementHeader c).isSome

/-- A well-formed management command carries a tag from 1 to 255, and its code names a command exactly
where it is no unknown command (R183). -/
def TaggedCommand.Statement (i : Instr) : Prop :=
  WellFormed i = true → ∀ tag code, managementHeader i = some (tag, code) →
    tag ≠ 0 ∧ namesCommand code = isNamed i

theorem TaggedCommand.powerOnReset (lines : ResetLines) :
    TaggedCommand.Statement (.powerOnReset lines) := by
  intro _ _ _ e; simp [managementHeader] at e

theorem TaggedCommand.cellArrival (lane : Lane) (words : List Word) (lines : Lines) (order : List Work) :
    TaggedCommand.Statement (.cellArrival lane words lines order) := by
  intro _ _ _ e; simp [managementHeader] at e

theorem TaggedCommand.substituteCycleStart (lines : Lines) (order : List Work) :
    TaggedCommand.Statement (.substituteCycleStart lines order) := by
  intro _ _ _ e; simp [managementHeader] at e

theorem TaggedCommand.slotOpening : TaggedCommand.Statement (.slotOpening) := by
  intro _ _ _ e; simp [managementHeader] at e

theorem TaggedCommand.laneDown : TaggedCommand.Statement (.laneDown) := by
  intro _ _ _ e; simp [managementHeader] at e

theorem TaggedCommand.laneUp : TaggedCommand.Statement (.laneUp) := by
  intro _ _ _ e; simp [managementHeader] at e

theorem TaggedCommand.otherCabTimeout : TaggedCommand.Statement (.otherCabTimeout) := by
  intro _ _ _ e; simp [managementHeader] at e

theorem TaggedCommand.activationAttempt : TaggedCommand.Statement (.activationAttempt) := by
  intro _ _ _ e; simp [managementHeader] at e

theorem TaggedCommand.settleComplete : TaggedCommand.Statement (.settleComplete) := by
  intro _ _ _ e; simp [managementHeader] at e

theorem TaggedCommand.brakeTimeout : TaggedCommand.Statement (.brakeTimeout) := by
  intro _ _ _ e; simp [managementHeader] at e

theorem TaggedCommand.entryToActive : TaggedCommand.Statement (.entryToActive) := by
  intro _ _ _ e; simp [managementHeader] at e

theorem TaggedCommand.pendingExitTaken : TaggedCommand.Statement (.pendingExitTaken) := by
  intro _ _ _ e; simp [managementHeader] at e

theorem TaggedCommand.scrubPassBegin : TaggedCommand.Statement (.scrubPassBegin) := by
  intro _ _ _ e; simp [managementHeader] at e

theorem TaggedCommand.stabledExit : TaggedCommand.Statement (.stabledExit) := by
  intro _ _ _ e; simp [managementHeader] at e

theorem TaggedCommand.speedSourceStale : TaggedCommand.Statement (.speedSourceStale) := by
  intro _ _ _ e; simp [managementHeader] at e

theorem TaggedCommand.speedLockAcquired : TaggedCommand.Statement (.speedLockAcquired) := by
  intro _ _ _ e; simp [managementHeader] at e

theorem TaggedCommand.selectionTimeout : TaggedCommand.Statement (.selectionTimeout) := by
  intro _ _ _ e; simp [managementHeader] at e

theorem TaggedCommand.requestTimeout (pos : Fin 4) :
    TaggedCommand.Statement (.requestTimeout pos) := by
  intro _ _ _ e; simp [managementHeader] at e

theorem TaggedCommand.doorStatusStale : TaggedCommand.Statement (.doorStatusStale) := by
  intro _ _ _ e; simp [managementHeader] at e

theorem TaggedCommand.phaseEnd (ch : Channel) : TaggedCommand.Statement (.phaseEnd ch) := by
  intro _ _ _ e; simp [managementHeader] at e

theorem TaggedCommand.stepEnd (ch : Channel) : TaggedCommand.Statement (.stepEnd ch) := by
  intro _ _ _ e; simp [managementHeader] at e

theorem TaggedCommand.hornMinReached : TaggedCommand.Statement (.hornMinReached) := by
  intro _ _ _ e; simp [managementHeader] at e

theorem TaggedCommand.hornStuck : TaggedCommand.Statement (.hornStuck) := by
  intro _ _ _ e; simp [managementHeader] at e

theorem TaggedCommand.transferCompletion : TaggedCommand.Statement (.transferCompletion) := by
  intro _ _ _ e; simp [managementHeader] at e

theorem TaggedCommand.status (tag : Byte) (page : Word) :
    TaggedCommand.Statement (.status tag page) := by
  intro h t k e
  simp only [managementHeader, Option.some.injEq, Prod.mk.injEq] at e
  obtain ⟨rfl, rfl⟩ := e
  simp_all [WellFormed, namesCommand, isNamed, managementHeader]

theorem TaggedCommand.clearStatus (tag : Byte) : TaggedCommand.Statement (.clearStatus tag) := by
  intro h t k e
  simp only [managementHeader, Option.some.injEq, Prod.mk.injEq] at e
  obtain ⟨rfl, rfl⟩ := e
  simp_all [WellFormed, namesCommand, isNamed, managementHeader]

theorem TaggedCommand.writeStage (tag : Byte) (offset count : Byte) (words : List Word) :
    TaggedCommand.Statement (.writeStage tag offset count words) := by
  intro h t k e
  simp only [managementHeader, Option.some.injEq, Prod.mk.injEq] at e
  obtain ⟨rfl, rfl⟩ := e
  simp_all [WellFormed, namesCommand, isNamed, managementHeader]

theorem TaggedCommand.transfer (tag : Byte) (table index : Word) :
    TaggedCommand.Statement (.transfer tag table index) := by
  intro h t k e
  simp only [managementHeader, Option.some.injEq, Prod.mk.injEq] at e
  obtain ⟨rfl, rfl⟩ := e
  simp_all [WellFormed, namesCommand, isNamed, managementHeader]

theorem TaggedCommand.readEntry (tag : Byte) (table index offset : Word) :
    TaggedCommand.Statement (.readEntry tag table index offset) := by
  intro h t k e
  simp only [managementHeader, Option.some.injEq, Prod.mk.injEq] at e
  obtain ⟨rfl, rfl⟩ := e
  simp_all [WellFormed, namesCommand, isNamed, managementHeader]

theorem TaggedCommand.envelopePointer (tag : Byte) (breakpoint : Word) :
    TaggedCommand.Statement (.envelopePointer tag breakpoint) := by
  intro h t k e
  simp only [managementHeader, Option.some.injEq, Prod.mk.injEq] at e
  obtain ⟨rfl, rfl⟩ := e
  simp_all [WellFormed, namesCommand, isNamed, managementHeader]

theorem TaggedCommand.envelopeData (tag : Byte) (count : Word) (values : List Word) :
    TaggedCommand.Statement (.envelopeData tag count values) := by
  intro h t k e
  simp only [managementHeader, Option.some.injEq, Prod.mk.injEq] at e
  obtain ⟨rfl, rfl⟩ := e
  simp_all [WellFormed, namesCommand, isNamed, managementHeader]

theorem TaggedCommand.lockSetup (tag : Byte) : TaggedCommand.Statement (.lockSetup tag) := by
  intro h t k e
  simp only [managementHeader, Option.some.injEq, Prod.mk.injEq] at e
  obtain ⟨rfl, rfl⟩ := e
  simp_all [WellFormed, namesCommand, isNamed, managementHeader]

theorem TaggedCommand.lock (tag : Byte) (table : Word) :
    TaggedCommand.Statement (.lock tag table) := by
  intro h t k e
  simp only [managementHeader, Option.some.injEq, Prod.mk.injEq] at e
  obtain ⟨rfl, rfl⟩ := e
  simp_all [WellFormed, namesCommand, isNamed, managementHeader]

theorem TaggedCommand.unlock (tag : Byte) (table : Word) :
    TaggedCommand.Statement (.unlock tag table) := by
  intro h t k e
  simp only [managementHeader, Option.some.injEq, Prod.mk.injEq] at e
  obtain ⟨rfl, rfl⟩ := e
  simp_all [WellFormed, namesCommand, isNamed, managementHeader]

theorem TaggedCommand.lockDown (tag : Byte) (table : Word) :
    TaggedCommand.Statement (.lockDown tag table) := by
  intro h t k e
  simp only [managementHeader, Option.some.injEq, Prod.mk.injEq] at e
  obtain ⟨rfl, rfl⟩ := e
  simp_all [WellFormed, namesCommand, isNamed, managementHeader]

theorem TaggedCommand.setRestriction (tag : Byte) (action value : Word) :
    TaggedCommand.Statement (.setRestriction tag action value) := by
  intro h t k e
  simp only [managementHeader, Option.some.injEq, Prod.mk.injEq] at e
  obtain ⟨rfl, rfl⟩ := e
  simp_all [WellFormed, namesCommand, isNamed, managementHeader]

theorem TaggedCommand.readRecord (tag : Byte) (index page : Word) :
    TaggedCommand.Statement (.readRecord tag index page) := by
  intro h t k e
  simp only [managementHeader, Option.some.injEq, Prod.mk.injEq] at e
  obtain ⟨rfl, rfl⟩ := e
  simp_all [WellFormed, namesCommand, isNamed, managementHeader]

theorem TaggedCommand.stable (tag : Byte) : TaggedCommand.Statement (.stable tag) := by
  intro h t k e
  simp only [managementHeader, Option.some.injEq, Prod.mk.injEq] at e
  obtain ⟨rfl, rfl⟩ := e
  simp_all [WellFormed, namesCommand, isNamed, managementHeader]

theorem TaggedCommand.wake (tag : Byte) : TaggedCommand.Statement (.wake tag) := by
  intro h t k e
  simp only [managementHeader, Option.some.injEq, Prod.mk.injEq] at e
  obtain ⟨rfl, rfl⟩ := e
  simp_all [WellFormed, namesCommand, isNamed, managementHeader]

theorem TaggedCommand.restart (tag : Byte) (lines : Lines) :
    TaggedCommand.Statement (.restart tag lines) := by
  intro h t k e
  simp only [managementHeader, Option.some.injEq, Prod.mk.injEq] at e
  obtain ⟨rfl, rfl⟩ := e
  simp_all [WellFormed, namesCommand, isNamed, managementHeader]

theorem TaggedCommand.unknownCommand (tag : Byte) (code : Byte) :
    TaggedCommand.Statement (.unknownCommand tag code) := by
  intro h t k e
  simp only [managementHeader, Option.some.injEq, Prod.mk.injEq] at e
  obtain ⟨rfl, rfl⟩ := e
  simp_all [WellFormed, namesCommand, isNamed]
  omega

end Sys2Proof.Laws
end

