-- ==== Sys2Proof/Laws/Sound.lean ====
section
/-! SUPPORT. The sound unit's shared operations: which sources and which other state an arbiter decision, a
request and a stop touch, and what state they leave a source in. -/

namespace Sys2Proof.Machine

set_option Elab.async false

/-- The horn, the buttons and the alarm conditions: everything of the sound unit but its sources. -/
structure SameDesk (a b : Sound) : Prop where
  horn : b.horn = a.horn
  hornCount : b.hornCount = a.hornCount
  bellBtn : b.bellBtn = a.bellBtn
  hornBtn : b.hornBtn = a.hornBtn
  ackBtn : b.ackBtn = a.ackBtn
  junctionFault : b.junctionFault = a.junctionFault
  overflow : b.overflow = a.overflow
  forced : b.forced = a.forced
  envelope : b.envelope = a.envelope

theorem SameDesk.refl (a : Sound) : SameDesk a a := ⟨rfl, rfl, rfl, rfl, rfl, rfl, rfl, rfl, rfl⟩

theorem SameDesk.trans {a b c : Sound} (h : SameDesk a b) (k : SameDesk b c) : SameDesk a c :=
  ⟨k.1.trans h.1, k.2.trans h.2, k.3.trans h.3, k.4.trans h.4, k.5.trans h.5, k.6.trans h.6,
    k.7.trans h.7, k.8.trans h.8, k.9.trans h.9⟩

theorem putSource_desk (snd : Sound) (x : Source) (v : SoundSource) :
    SameDesk snd (putSource snd x v) := by
  cases x <;> exact ⟨rfl, rfl, rfl, rfl, rfl, rfl, rfl, rfl, rfl⟩

/-- A source put back as it is. -/
@[simp] theorem putSource_getSource (snd : Sound) (x : Source) :
    putSource snd x (getSource snd x) = snd := by
  cases x <;> rfl

theorem mem_members (x : Source) (ch : Channel) : x ∈ members ch ↔ channelOf x = ch := by
  cases x <;> cases ch <;> simp [members, channelOf]

/-- The sources that could take a channel from `x` share its channel. -/
theorem channelOf_of_mem_higherThan {x y : Source} (h : y ∈ higherThan x) : channelOf y = channelOf x := by
  cases x <;> simp_all [higherThan] <;> aesop

theorem not_mem_higherThan_self (x : Source) : x ∉ higherThan x := by
  cases x <;> simp [higherThan]

/-! ### Beginning a step and completing -/

@[simp] theorem beginStep_state (c : List Word) (x : Source) (snd : Sound) :
    (getSource (beginStep c x snd) x).state = .playing := by
  simp [beginStep]

/-- A step just begun is not counted before the next cycle start (R153). -/
@[simp] theorem beginStep_begun (c : List Word) (x : Source) (snd : Sound) :
    (getSource (beginStep c x snd) x).begun = true := by
  simp [beginStep]

@[simp] theorem beginStep_pattern (c : List Word) (x : Source) (snd : Sound) :
    (getSource (beginStep c x snd) x).pattern = (getSource snd x).pattern := by
  simp [beginStep]

theorem beginStep_ne (c : List Word) {x y : Source} (h : x ≠ y) (snd : Sound) :
    getSource (beginStep c x snd) y = getSource snd y := getSource_putSource_ne h _ _

theorem beginStep_desk (c : List Word) (x : Source) (snd : Sound) : SameDesk snd (beginStep c x snd) :=
  putSource_desk _ _ _

@[simp] theorem toIdle_self (x : Source) (snd : Sound) : getSource (toIdle x snd) x = SoundSource.idle :=
  getSource_putSource_self _ _ _

theorem toIdle_ne {x y : Source} (h : x ≠ y) (snd : Sound) :
    getSource (toIdle x snd) y = getSource snd y := getSource_putSource_ne h _ _

theorem toIdle_desk (x : Source) (snd : Sound) : SameDesk snd (toIdle x snd) := putSource_desk _ _ _

/-! ### The arbiter's decision (R155) -/

theorem startBest_desk (c : List Word) (xs : List Source) (snd : Sound) :
    SameDesk snd (startBest c xs snd) := by
  induction xs generalizing snd with
  | nil => exact .refl snd
  | cons x xs ih =>
    unfold startBest
    split
    · split
      · exact (toIdle_desk x snd).trans (ih _)
      · exact beginStep_desk c x snd
    · exact ih snd

/-- A source that is not among those decided over stands. -/
theorem startBest_outside (c : List Word) {xs : List Source} {y : Source} (h : y ∉ xs) (snd : Sound) :
    getSource (startBest c xs snd) y = getSource snd y := by
  induction xs generalizing snd with
  | nil => rfl
  | cons x xs ih =>
    have hx : x ≠ y := fun e => h (by simp [e])
    have hxs : y ∉ xs := fun hm => h (List.mem_cons_of_mem _ hm)
    unfold startBest
    split
    · split
      · rw [ih hxs, toIdle_ne hx]
      · exact beginStep_ne c hx snd
    · exact ih hxs snd

/-- With nothing ready nothing begins. -/
theorem startBest_none (c : List Word) {xs : List Source} {snd : Sound}
    (h : ∀ x ∈ xs, isReady snd x = false) : startBest c xs snd = snd := by
  induction xs with
  | nil => rfl
  | cons x xs ih =>
    unfold startBest
    simp only [h x (by simp)]
    exact ih fun y hy => h y (List.mem_cons_of_mem _ hy)

/-- The first ready source with steps begins; those before it are not ready. -/
theorem startBest_first (c : List Word) {xs ys : List Source} {x : Source} {snd : Sound}
    (hxs : ∀ z ∈ xs, isReady snd z = false) (hx : isReady snd x = true)
    (hs : (getSource snd x).pattern.steps ≠ 0) :
    startBest c (xs ++ x :: ys) snd = beginStep c x snd := by
  induction xs with
  | nil => simp [startBest, hx, hs]
  | cons z zs ih =>
    rw [List.cons_append, startBest]
    simp only [hxs z (by simp)]
    exact ih fun y hy => hxs y (List.mem_cons_of_mem _ hy)

/-- An idle source stays idle: a decision begins only what is ready. -/
theorem startBest_idle (c : List Word) (xs : List Source) {y : Source} {snd : Sound}
    (h : (getSource snd y).state = .idle) : (getSource (startBest c xs snd) y).state = .idle := by
  induction xs generalizing snd with
  | nil => exact h
  | cons x xs ih =>
    unfold startBest
    split
    · next hr =>
      have hx : x ≠ y := by rintro rfl; simp [isReady, h] at hr
      split
      · exact ih (by rw [toIdle_ne hx]; exact h)
      · rw [beginStep_ne c hx]; exact h
    · exact ih h

/-- A source that is not idle and has steps is not idle after a decision. -/
theorem startBest_keeps (c : List Word) (xs : List Source) {y : Source} {snd : Sound}
    (h : (getSource snd y).state ≠ .idle) (hs : (getSource snd y).pattern.steps ≠ 0) :
    (getSource (startBest c xs snd) y).state ≠ .idle := by
  induction xs generalizing snd with
  | nil => exact h
  | cons x xs ih =>
    unfold startBest
    split
    · by_cases hx : x = y
      · subst hx; simp [hs]
      · split
        · exact ih (by rw [toIdle_ne hx]; exact h) (by rw [toIdle_ne hx]; exact hs)
        · rw [beginStep_ne c hx]; exact h
    · exact ih h hs

/-! ### What is passed over (R157) -/

theorem SameDesk.sourcesAloneDiffer {a b : Sound} (h : SameDesk a b) : SourcesAloneDiffer a b := by
  obtain ⟨h1, h2, h3, h4, h5, h6, h7, h8, h9⟩ := h
  cases a; cases b
  simp_all [SourcesAloneDiffer]

/-- From `a` to `b` the ready sources of a list that have no step to play have completed, and nothing else
has changed. -/
structure PassedOver (xs : List Source) (a b : Sound) : Prop where
  done : ∀ z ∈ xs, CompletesAtOnce a z → getSource b z = SoundSource.idle
  rest : ∀ z, ¬ (z ∈ xs ∧ CompletesAtOnce a z) → getSource b z = getSource a z
  desk : SameDesk a b

theorem PassedOver.nil (a : Sound) : PassedOver [] a a := ⟨by simp, fun _ _ => rfl, .refl a⟩

theorem toIdle_not_ready (x : Source) (snd : Sound) : isReady (toIdle x snd) x = false := by
  simp [isReady, SoundSource.idle]

theorem isReady_congr {a b : Sound} {z : Source} (h : getSource b z = getSource a z) :
    isReady b z = isReady a z := by
  unfold isReady; rw [h]

/-- A source that is not ready is passed over as it is. -/
theorem PassedOver.skip {xs : List Source} {x : Source} {a b : Sound} (hx : isReady a x = false)
    (h : PassedOver xs a b) : PassedOver (x :: xs) a b := by
  have hn : ¬ CompletesAtOnce a x := fun k => by rw [k.1] at hx; cases hx
  refine ⟨fun z hz hc => ?_, fun z hz => h.rest z fun k => hz ⟨List.mem_cons_of_mem _ k.1, k.2⟩, h.desk⟩
  rcases List.mem_cons.mp hz with rfl | hz
  · exact absurd hc hn
  · exact h.done z hz hc

/-- A ready source with no step completes and is passed over. -/
theorem PassedOver.complete {xs : List Source} {x : Source} {a b : Sound} (hx : CompletesAtOnce a x)
    (h : PassedOver xs (toIdle x a) b) : PassedOver (x :: xs) a b := by
  have self : getSource b x = SoundSource.idle := by
    rw [h.rest x fun k => Bool.noConfusion ((toIdle_not_ready x a).symm.trans k.2.1)]
    exact toIdle_self x a
  have other : ∀ z, z ≠ x → (CompletesAtOnce (toIdle x a) z ↔ CompletesAtOnce a z) := fun z hz => by
    unfold CompletesAtOnce; rw [isReady_congr (toIdle_ne (Ne.symm hz) a), toIdle_ne (Ne.symm hz)]
  refine ⟨fun z hz hc => ?_, fun z hz => ?_, (toIdle_desk x a).trans h.desk⟩
  · by_cases e : z = x
    · rw [e, self]
    · exact h.done z ((List.mem_cons.mp hz).resolve_left e) ((other z e).mpr hc)
  · have e : z ≠ x := by rintro rfl; exact hz ⟨by simp, hx⟩
    rw [h.rest z fun k => hz ⟨List.mem_cons_of_mem _ k.1, (other z e).mp k.2⟩, toIdle_ne (Ne.symm e)]

/-- A source that cannot play is either not ready or completes at once, and no other becomes able to play. -/
theorem canPlay_toIdle {x z : Source} {snd : Sound} (h : ¬ CanPlay snd z) : ¬ CanPlay (toIdle x snd) z := by
  by_cases e : x = z
  · subst e; exact fun k => Bool.noConfusion ((toIdle_not_ready x snd).symm.trans k.1)
  · unfold CanPlay; rw [isReady_congr (toIdle_ne e snd), toIdle_ne e]; exact h

/-- An arbiter decision passes over the sources that cannot play. -/
theorem startBest_passes (c : List Word) (xs ys : List Source) {snd : Sound}
    (h : ∀ z ∈ xs, ¬ CanPlay snd z) :
    ∃ snd', PassedOver xs snd snd' ∧ startBest c (xs ++ ys) snd = startBest c ys snd' := by
  induction xs generalizing snd with
  | nil => exact ⟨snd, .nil snd, rfl⟩
  | cons x xs ih =>
    rw [List.cons_append, startBest]
    cases hr : isReady snd x with
    | false =>
      obtain ⟨b, hb, he⟩ := ih fun z hz => h z (List.mem_cons_of_mem _ hz)
      exact ⟨b, hb.skip hr, by simpa using he⟩
    | true =>
      have hs : (getSource snd x).pattern.steps = 0 := by
        by_contra k; exact h x (by simp) ⟨hr, k⟩
      obtain ⟨b, hb, he⟩ := ih fun z hz => canPlay_toIdle (x := x) (h z (List.mem_cons_of_mem _ hz))
      exact ⟨b, hb.complete ⟨hr, hs⟩, by simpa [hs] using he⟩

/-- The decision at a step end passes over the sources that cannot play. -/
theorem continueOrYield_passes (c : List Word) (x : Source) (xs ys : List Source) {snd : Sound}
    (h : ∀ z ∈ xs, ¬ CanPlay snd z) :
    ∃ snd', PassedOver xs snd snd' ∧
      continueOrYield c x (xs ++ ys) snd = continueOrYield c x ys snd' := by
  induction xs generalizing snd with
  | nil => exact ⟨snd, .nil snd, rfl⟩
  | cons z xs ih =>
    rw [List.cons_append, continueOrYield]
    cases hr : isReady snd z with
    | false =>
      obtain ⟨b, hb, he⟩ := ih fun w hw => h w (List.mem_cons_of_mem _ hw)
      exact ⟨b, hb.skip hr, by simpa using he⟩
    | true =>
      have hs : (getSource snd z).pattern.steps = 0 := by
        by_contra k; exact h z (by simp) ⟨hr, k⟩
      obtain ⟨b, hb, he⟩ := ih fun w hw => canPlay_toIdle (x := z) (h w (List.mem_cons_of_mem _ hw))
      exact ⟨b, hb.complete ⟨hr, hs⟩, by simpa [hs] using he⟩

theorem beginStep_began (c : List Word) (x : Source) (snd : Sound) :
    BeganStep c (getSource snd x) (getSource (beginStep c x snd) x) := by
  intro on off h
  simp [beginStep, h]

/-! ### Requests (R152) and stops (R156) -/

theorem requestSource_desk (c : List Word) (acts : Bool) (x : Source) (snd : Sound) :
    SameDesk snd (requestSource c acts x snd) := by
  unfold requestSource
  split
  · dsimp only
    split
    · exact (putSource_desk _ _ _).trans (startBest_desk _ _ _)
    · exact putSource_desk _ _ _
  · exact .refl snd

/-- A request leaves the other channel alone. -/
theorem requestSource_other (c : List Word) (acts : Bool) {x y : Source} (snd : Sound)
    (h : channelOf y ≠ channelOf x) :
    getSource (requestSource c acts x snd) y = getSource snd y := by
  have hxy : x ≠ y := by rintro rfl; exact h rfl
  have hm : y ∉ members (channelOf x) := fun hy => h ((mem_members _ _).mp hy)
  unfold requestSource
  split
  · dsimp only
    split
    · rw [startBest_outside c hm, getSource_putSource_ne hxy]
    · exact getSource_putSource_ne hxy _ _
  · rfl

/-- A request that is taken, for a pattern with steps, takes the source out of IDLE. -/
theorem requestSource_notIdle (c : List Word) (x : Source) (snd : Sound)
    (hs : (patternOf c x).steps ≠ 0) : (getSource (requestSource c true x snd) x).state ≠ .idle := by
  unfold requestSource
  split
  · dsimp only
    split
    · exact startBest_keeps c _ (by simp) (by simpa using hs)
    · simp
  · next h => simpa using h

/-- A stopped source is idle. -/
theorem stopSource_idle (c : List Word) (x : Source) (snd : Sound) :
    (getSource (stopSource c x snd) x).state = .idle := by
  unfold stopSource
  split
  · assumption
  · simp [SoundSource.idle]
  · simp [SoundSource.idle]
  · exact startBest_idle c _ (by simp [SoundSource.idle])

theorem stopSource_desk (c : List Word) (x : Source) (snd : Sound) :
    SameDesk snd (stopSource c x snd) := by
  unfold stopSource
  split
  · exact .refl snd
  · exact toIdle_desk x snd
  · exact toIdle_desk x snd
  · exact (toIdle_desk x snd).trans (startBest_desk _ _ _)

/-- A stop leaves the other channel alone. -/
theorem stopSource_other (c : List Word) {x y : Source} (snd : Sound) (h : channelOf y ≠ channelOf x) :
    getSource (stopSource c x snd) y = getSource snd y := by
  have hxy : x ≠ y := by rintro rfl; exact h rfl
  have hm : y ∉ members (channelOf x) := fun hy => h ((mem_members _ _).mp hy)
  unfold stopSource
  split
  · rfl
  · exact toIdle_ne hxy snd
  · exact toIdle_ne hxy snd
  · rw [startBest_outside c hm, toIdle_ne hxy]

/-! ### The DEPARTURE row (R159) -/

/-- The row follows DEPART: where it agreed before, it agrees after. -/
theorem departureRow_agrees (before after : Sound) (row : Option Nat)
    (h : row = if before.depart.state = .idle then none else some 0) :
    departureRow before after row = if after.depart.state = .idle then none else some 0 := by
  subst h
  unfold departureRow
  split <;> split <;> simp_all

/-- The row stands where DEPART neither leaves nor enters IDLE. -/
theorem departureRow_same {before after : Sound} (row : Option Nat)
    (h : after.depart.state = .idle ↔ before.depart.state = .idle) :
    departureRow before after row = row := by
  unfold departureRow
  by_cases hb : before.depart.state = .idle
  · simp [hb, h.mpr hb]
  · rw [if_neg (fun ha => hb (h.mp ha)), if_neg hb]

end Sys2Proof.Machine
end

