-- ==== Sys2Proof/Tests/Slice0.lean ====
section
/-! SUPPORT. Tests: the checks of well-formedness, values that the manual gives, and for every obligation
with hypotheses a state and operands that meet them (`witness_…`). -/

namespace Sys2Proof.Tests

open Sys2Proof Sys2Proof.Machine

set_option Elab.async false

/-! ### Ill-formed commands are refused -/

theorem test_cell_without_words : WellFormed (.cellArrival .A [] Lines.low []) = false := by decide

theorem test_order_names_a_work_twice :
    WellFormed (.substituteCycleStart Lines.low [.sound, .sound]) = false
      ∧ WellFormed (.cellArrival .A [0] Lines.low [.stop, .stop]) = false := by decide

theorem test_tag_zero_is_ill_formed :
    [Instr.status 0 0, .clearStatus 0, .writeStage 0 0 1 [0, 0, 0, 0, 0], .transfer 0 0 0,
      .readEntry 0 0 0 0, .envelopePointer 0 0, .envelopeData 0 1 [0, 0, 0, 0, 0], .lockSetup 0, .lock 0 0,
      .unlock 0 0, .lockDown 0 0, .setRestriction 0 1 0, .readRecord 0 0 0, .stable 0, .wake 0,
      .restart 0 Lines.low, .unknownCommand 0 17].all (fun i => !WellFormed i) = true := by decide

theorem test_argument_words_are_five :
    WellFormed (.writeStage 1 0 1 [0]) = false ∧ WellFormed (.envelopeData 1 1 []) = false := by decide

theorem test_named_code_is_no_unknown_command :
    WellFormed (.unknownCommand 1 16) = false ∧ WellFormed (.unknownCommand 1 17) = true := by decide

/-! ### Values the manual gives -/

/-- Section 1.5: "the single byte 0x00 taken from the initial register gives 0xE1F0". -/
theorem test_crc_of_a_zero_byte : crcByte 0xFFFF 0 = 0xE1F0 := by decide +kernel

/-- R13: a broken check fails. -/
theorem test_broken_check_fails :
    beaconCycle (makeCell 0 5 .beacon 1 []) = some 5
      ∧ beaconCycle ((makeCell 0 5 .beacon 1 []).map (· ^^^ 1)) = none := by decide +kernel

/-- Section 5.5: at v_eff 524 between s of 400 and 700, B of 1000 and 900 gives 959. -/
theorem test_brake_limit_truncates :
    limitsOver 524 [⟨400, 0, 1000⟩, ⟨700, 0, 900⟩] = (0, 959) := by decide

/-- R193: a NODE strap of 0 or 63 gives node number 62, and any other value that number. -/
theorem test_node_strap : nodeNumber 0 = 62 ∧ nodeNumber 63 = 62 ∧ nodeNumber 1 = 1 := by decide

/-- R105: an entry of marker id 0 is empty whatever else it holds, and R180 passes it. -/
theorem test_entry_of_id_zero_is_empty :
    markersInRange [0xF000, 0xFFFF, 0, 0] = true ∧ markersInRange [0xF001, 1] = false := by decide

/-- The reset state is what power-on reset leaves with every line low. -/
theorem test_reset_is_power_on_reset : resetPart Lines.low = State.reset.part := rfl

/-- No row of the table gives bits: no word spells a command. -/
theorem test_no_table_bits (s : State) (nbits w : Nat) :
    decodeTableWord nbits w = none ∧ s.withFetchWord nbits w = s := ⟨rfl, rfl⟩

/-! ### States for the witnesses -/

/-- A state made from the reset state. -/
def onReset (f : Part → Part) : State := { part := f State.reset.part, pending := [] }

/-- SYNCHRONISED in a cycle, with a slot open and both lanes UP. -/
def synced (slot : Option Six) (cycle : Six) (p : Part) : Part :=
  let line : LineInterface := {
    state := .synchronised
    counter := cycle
    slotOpen := slot
    timerArmed := true
    laneA := { p.line.laneA with up := true }
    laneB := { p.line.laneB with up := true } }
  { p with line := line }

/-- A cab state with its CAB row. -/
def inState (st : CabState) (p : Part) : Part :=
  { p with
    cab := { p.cab with state := st }
    caps := { p.caps with cab := if st = .active then none else some 0 } }

/-- An entry's words: enabled, matching every cycle (section 11.5). -/
def entry (slot disposition select fn len : Nat) : List Word :=
  [word (0x8000 + slot * 256 + disposition * 16 + select), 1, word (fn * 256 + len)]

/-- Entries of HANDLE, SPEED, EMERGENCY, DOOR_STATUS, OTHER_CAB, MGMT_IN, MGMT_OUT, GENERIC and an OWN
DEMAND_OUT, at slots 10 to 18. -/
def fittedWords : List Word :=
  entry 10 1 2 1 1 ++ entry 11 1 2 2 2 ++ entry 12 1 2 8 1 ++ entry 13 1 2 7 2 ++ entry 14 1 2 9 1
    ++ entry 15 2 2 10 8 ++ entry 16 4 3 22 8 ++ entry 17 1 2 0 3 ++ entry 18 4 3 16 4

def fitted (p : Part) : Part :=
  { p with tables := putTable p.tables .slot (Table.reset (fittedWords ++ List.replicate 213 0)) }

/-- A record read at age 0 with a first word. -/
def fresh (w : Word) : SlotRecord := { SlotRecord.cleared with payload := [w, 0, 0, 0, 0, 0, 0, 0], age := 0 }

/-- HANDLE at 500, SPEED at a value, EMERGENCY clear, a door status with every zone closed. -/
def driven (v : Word) (p : Part) : Part :=
  let q := putRecord 0 (fresh 500) (putRecord 1 (fresh v) (putRecord 2 (fresh 0) (putRecord 3 (fresh 255) p)))
  { q with
    stop := { p.stop with door := some { closed := 255, released := 0, source := 3 } }
    caps := { p.caps with doors := none }
    traction := { p.traction with vEff := v.toNat, locked := true, lockCount := 4 } }

/-- ALARM and DEPART of one step each, on 3 and off 2. -/
def cadence (p : Part) : Part :=
  let words := [0x0302] ++ List.replicate 31 0
    ++ [0x0001, 0x0100, 0x0001, 0x0100, 0x0001, 0x0103, 0x0001, 0x0102, 0x0002, 0x0201]
  { p with tables := putTable p.tables .cadence (Table.reset words) }

/-- Junction 0: address 1, unconfirmed cap 100, timeout 10, default route 1. -/
def junctions (p : Part) : Part :=
  let words := [1, 100, 10, 0x0101, 0x0101, 300, 20, 0x0100] ++ List.replicate 1272 0
  { p with tables := putTable p.tables .route (Table.reset words) }

/-- An open record of junction 0. -/
def record (route : BitVec 4) (st : JunctionState) (count : Nat) : JunctionRecord :=
  { junction := 0, route := route, state := st, count := count, confirmed := 0, distance := 0,
    setSent := true }

def opened (r : JunctionRecord) (p : Part) : Part :=
  { p with
    junction := { p.junction with list := p.junction.list.set 0 (some r), selection := 2 }
    caps := { p.caps with junctions := p.caps.junctions.set 0 (some 100) } }

/-- A source PLAYING its first step, with its phase count at 0. -/
def playingStep (steps : Nat) (phaseOn : Bool) (offCount : Nat) : SoundSource :=
  { SoundSource.idle with
    state := .playing
    pattern := { first := 0, steps := steps, repeats := 1, tone := 1 }
    phaseOn := phaseOn
    offCount := offCount
    passesLeft := 1 }

/-- A train under way in ACTIVE: synchronised, every input fresh, one junction record open. -/
def underWay : Part :=
  opened (record 1 .requested 10) (driven 400 (junctions (cadence (fitted
    (inState .active (synced (some 5) 7 State.reset.part))))))

theorem tablesOk_of_free {p : Part} (hs : p.tables.staging = .free)
    (h : (∀ t ∈ [TableId.slot, .param, .envelope, .cadence, .marker, .route],
        (tableAt p.tables t).words.length = tableSize t ∧ sumMatches (tableAt p.tables t) = true)
      ∧ paramInRange p.tables.param.words = true
      ∧ p.tables.envelope.words.all (between 0 1000) = true
      ∧ p.tables.held.all (between 0 1000) = true
      ∧ p.tables.front.length = 24 ∧ p.tables.back.length = 24
      ∧ p.caps.line = lineCap p ∧ p.tables.envelopeValid = envelopeIsValid p) : TablesOk p := by
  obtain ⟨h1, h2, h3, h4, h5, h6, h7, h8⟩ := h
  refine ⟨fun t => h1 t (by cases t <;> simp), h2, h3, h4, h5, h6, h7, ?_, ?_⟩
  · rw [h8, envelopeIsValid_iff]
  · rw [hs]; trivial

theorem tablesOk_underWay : TablesOk underWay := tablesOk_of_free rfl (by decide +kernel)

theorem junctionOk_underWay : JunctionOk underWay := by
  have h : ∀ pos r, openAt underWay pos = some r → pos = 0 := by decide +kernel
  refine ⟨by decide +kernel, by decide +kernel, fun pos pos' hne r r' hr hr' => ?_, by decide +kernel⟩
  exact absurd ((h pos r hr).trans (h pos' r' hr').symm) hne

/-! ### Witnesses: the machine and the car line -/

theorem witness_StepTakesTheFrontCommand : State.reset.pending = [] := rfl

theorem witness_EveryCommandCompletes : ∀ lines, Instr.laneDown ≠ .powerOnReset lines := by
  intro lines h; cases h

/-- RESET_N high with NODE straps of 0 and 5, and RESET_N low. -/
theorem witness_PowerOnResetLineCabAndTraction :
    ({ toLines := Lines.low, resetN := true : ResetLines }.resetN = true
        ∧ { toLines := Lines.low, resetN := true : ResetLines }.node = 0
        ∧ { toLines := { Lines.low with node := 5 }, resetN := true : ResetLines }.node ≠ 0)
      ∧ { toLines := Lines.low, resetN := false : ResetLines }.resetN = false
      ∧ ∀ x, Instr.slotOpening ≠ .powerOnReset x :=
  ⟨by decide, rfl, fun _ h => by cases h⟩

theorem witness_MadeCellIsReadBack :
    (List.replicate 8 (0xFFFF : Word)).length ≤ 8 ∧ (Kind.data = .null → List.replicate 8 (0xFFFF : Word) = [])
      ∧ ([] : List Word).length ≤ 8 ∧ (Kind.null = .null → ([] : List Word) = []) := by decide +kernel

/-- The fields of a DATA cell of one word. -/
def wordCell : Cell :=
  let check := (makeCell 63 0 .data 1 [1]).getLast!
  { slot := 63, cycle := 0, kind := .data, node := 1, length := 1, payload := [1], check := check }

theorem witness_CellRepeatedOutsideSynchronised :
    (heldPart Lines.low State.reset.part).resetN = false
      ∧ State.reset.part.resetN = true ∧ State.reset.part.line.state ≠ .synchronised
      ∧ beaconCycle (makeCell 63 0 .data 1 [1]) = none
      ∧ (∃ c, Intact (makeCell 63 0 .data 1 [1]) c ∧ c.kind ≠ .beacon)
      ∧ beaconCycle [0] = none ∧ ¬ (∃ c, Intact [0] c ∧ c.kind ≠ .beacon) :=
  ⟨rfl, rfl, by decide +kernel, by decide +kernel,
    ⟨wordCell, ⟨by decide +kernel, by decide +kernel⟩, by decide⟩,
    by decide, fun ⟨_, ⟨h, _⟩, _⟩ => by simp [parseCell] at h⟩

/-- The credit that brings a lane up, and the miss that brings one down. -/
def lastBeacon : LaneState := { LaneState.reset with beacons := 1, credit := true }
def lastMiss : LaneState := { LaneState.reset with up := true, misses := 7 }

theorem witness_LaneFollowsItsBeacons :
    (lastBeacon.beacons ≤ 2 ∧ lastBeacon.misses ≤ 8 ∧ lastBeacon.credit = true)
      ∧ lastMiss.beacons ≤ 2 ∧ lastMiss.misses ≤ 8 ∧ lastMiss.credit = false := by decide +kernel

/-- An activation, an order that names some of the works, and the supervision mode found and left at a cycle
start, after a teardown from HOLD SLOW and after a return to ACTIVE. -/
theorem witness_BeaconStartsCycle_works :
    { State.reset.part.cab with state := .activating }.state = .activating
      ∧ { State.reset.part.cab with state := .stabled }.state = .stabled
      ∧ { loss := none, activating := true, suspended := false : CycleStart }.activating = true
      ∧ ({ loss := none, activating := false, suspended := true : CycleStart }.suspended = true
        ∧ State.reset.part.traction.suspended = false ∧ State.reset.part.cab.state ≠ .active
        ∧ { State.reset.part.cab with state := .active }.state = .active)
      ∧ [Work.sound, .cabDesk].idxOf .sound < [Work.sound, .cabDesk].idxOf .cabDesk
      ∧ [Work.sound, .cabDesk].idxOf .cabDesk < [Work.sound, .cabDesk].idxOf .traction := by decide +kernel

/-- The first beacon after reset; one that comes late in a cycle with a slip, and one with the expected
number; no transfer to SLOT outstanding. -/
theorem witness_BeaconStartsCycle :
    (State.reset.part.resetN = true ∧ beaconCycle (makeCell 0 63 .beacon 1 []) = some 63
        ∧ BeginsCycle .A 63 State.reset.part)
      ∧ underWay.resetN = true ∧ beaconCycle (makeCell 0 9 .beacon 1 []) = some 9
      ∧ BeginsCycle .A 9 underWay ∧ underWay.line.state ≠ .unsynchronised
      ∧ (9 : Six) ≠ underWay.line.counter + 1
      ∧ BeginsCycle .A 8 underWay ∧ (8 : Six) = underWay.line.counter + 1
      ∧ (∀ x, outstanding underWay.tables = some x → x.table ≠ .slot) := by
  refine ⟨⟨rfl, by decide +kernel, .inl (by decide +kernel)⟩, rfl, by decide +kernel,
    .inr ⟨by decide +kernel, .inr (by decide +kernel)⟩, by decide +kernel, by decide +kernel,
    .inr ⟨by decide +kernel, .inr (by decide +kernel)⟩, by decide +kernel, fun _ h => by cases h⟩

theorem witness_BeaconCopyIsClassified :
    (underWay.resetN = true ∧ beaconCycle (makeCell 0 7 .beacon 1 []) = some 7
        ∧ underWay.line.state = .synchronised
        ∧ (laneOf underWay.line .B).credit = false ∧ (7 : Six) = underWay.line.counter)
      ∧ (laneOf (creditLane .A underWay).line .A).credit = true
      ∧ ((synced (some 0) 7 State.reset.part).line.slotOpen = some 0
        ∧ (laneOf (synced (some 0) 7 State.reset.part).line .A).credit = false
        ∧ (8 : Six) ≠ (synced (some 0) 7 State.reset.part).line.counter) := by decide +kernel

/-- Disarmed; synchronised in slot 5 and in slot 63; and FREE_RUNNING after an expiry. -/
theorem witness_TimerExpirySubstitutesCycleStart :
    State.reset.part.line.timerArmed = false
      ∧ (underWay.line.state = .synchronised ∧ underWay.line.slotOpen ≠ some 63)
      ∧ ((synced (some 63) 7 State.reset.part).line.timerArmed = true
        ∧ (synced (some 63) 7 State.reset.part).line.slotOpen = some 63)
      ∧ ((substituteStart [] underWay).line.timerArmed = true
        ∧ (substituteStart [] underWay).line.state ≠ .synchronised)
      ∧ (∀ x, outstanding underWay.tables = some x → x.table ≠ .slot) :=
  ⟨rfl, by decide +kernel, by decide +kernel, by decide +kernel, fun _ h => by cases h⟩



/-- Both lanes with runs as given. -/
def lanes (a b : LaneState) (p : Part) : Part := { p with line := { p.line with laneA := a, laneB := b } }

def missed : LaneState := { LaneState.reset with up := true, misses := 8 }
def seen : LaneState := { LaneState.reset with beacons := 2 }

theorem witness_LaneEventsFollowTheRuns :
    ((lanes missed lastMiss State.reset.part).cab.state ≠ .activating ∧ Lane.A ≠ Lane.B
        ∧ missed.up = true ∧ 8 ≤ missed.misses ∧ lastMiss.up = true ∧ lastMiss.misses < 8)
      ∧ ((laneOf (lanes missed seen State.reset.part).line .A).up = true
        ∧ 8 ≤ (laneOf (lanes missed seen State.reset.part).line .A).misses
        ∧ (laneOf (lanes missed seen State.reset.part).line .B).up = false)
      ∧ (∀ l, (laneOf (lanes missed missed State.reset.part).line l).up = true
          ∧ 8 ≤ (laneOf (lanes missed missed State.reset.part).line l).misses)
      ∧ (seen.up = false ∧ 2 ≤ seen.beacons ∧ lastMiss.up = true)
      ∧ (LaneState.reset.up = false ∧ LaneState.reset.beacons < 2)
      ∧ ({ State.reset.part.cab with driveRequest := true }.state = .inactive
        ∧ { State.reset.part.cab with driveRequest := true }.driveRequest = true
        ∧ { State.reset.part.cab with driveRequest := true }.view = .inactive) :=
  ⟨by decide +kernel, by decide +kernel, by intro l; cases l <;> decide +kernel, by decide +kernel,
    by decide +kernel, by decide +kernel⟩

/-- ACTIVATING at a stage with a count. -/
def atStage (stage : Stage) (count : Nat) (p : Part) : Part :=
  { p with cab := { p.cab with state := .activating, stage := stage, count := count, settleLength := 8 } }

/-- ACTIVATING with a table under check. -/
def checking (t : TableId) (p : Part) : Part :=
  { p with cab := { p.cab with state := .activating, stage := .tableCheck, table := some t } }

/-- Both lanes go DOWN, and the last UP lane does; counts 999 and 998 of BRAKE_TEST before a cycle start;
PARAM changed before its check, after it, and in SPEED_LOCK. -/
theorem witness_FailedActivationReturnsToInactive :
    ((lanes missed missed (atStage .brakeTest 1000 State.reset.part)).cab.state = .activating
        ∧ (∀ l, (laneOf (lanes missed missed (atStage .brakeTest 1000 State.reset.part)).line l).up = true
          ∧ 8 ≤ (laneOf (lanes missed missed (atStage .brakeTest 1000 State.reset.part)).line l).misses))
      ∧ ((laneOf (lanes seen missed State.reset.part).line .B).up = true
        ∧ (∀ l, (laneOf (lanes seen missed State.reset.part).line l).up = true →
          8 ≤ (laneOf (lanes seen missed State.reset.part).line l).misses))
      ∧ ((atStage .brakeTest 1000 State.reset.part).cab.stage = .brakeTest
        ∧ 1000 ≤ (atStage .brakeTest 1000 State.reset.part).cab.count ∧ 998 + 1 < 1000 ∧ 1000 ≤ 999 + 1)
      ∧ HasBeenChecked .param (atStage .speedLock 0 State.reset.part)
      ∧ HasBeenChecked .param (checking .envelope State.reset.part)
      ∧ ¬ HasBeenChecked .param (checking .param State.reset.part) := by
  refine ⟨⟨by decide +kernel, by intro l; cases l <;> decide +kernel⟩,
    ⟨by decide +kernel, by intro l; cases l <;> decide +kernel⟩, by decide +kernel, .inr (.inl rfl),
    .inr (.inr ⟨rfl, .envelope, rfl, by decide⟩), ?_⟩
  rintro (h | h | ⟨_, u, hu, h⟩)
  · cases h
  · cases h
  · obtain rfl : u = .param := (Option.some.inj hu).symm
    exact absurd h (by decide)

/-! ### Witnesses: the slot engine -/

theorem witness_GoverningEntryIsFirstMatch :
    (underWay.tables.slot.words.length = 240 ∧ hasFn underWay .mgmtIn = true
        ∧ hasFn underWay .mgmtOut = true ∧ (governingAt 10 underWay).isSome = true
        ∧ governingAt 20 underWay = none)
      ∧ (hasFn State.reset.part .mgmtIn = false ∧ hasFn State.reset.part .mgmtOut = false
        ∧ (synced none 62 State.reset.part).line.counter = State.reset.part.node) := by
  decide +kernel

/-- Slot 17 open under the GENERIC entry, and slot 18 under the OWN entry. -/
def openAtEntry (slot : Six) (p : Part) : Part :=
  { p with
    line := { p.line with slotOpen := some slot }
    slots := { p.slots with governing := governingAt slot p } }

def generic : Governing := (governingAt 17 underWay).getD default
def owned : Governing := (governingAt 18 underWay).getD default
def dataCell (slot : Six) : List Word := makeCell slot 7 .data 3 [1, 2, 3]
def dataFields (slot : Six) : Cell :=
  { slot := slot, cycle := 7, kind := .data, node := 3, length := 3, payload := [1, 2, 3],
    check := (dataCell slot).getLast! }

/-- A slot open under a governing entry, and lanes whose cells have not come. -/
theorem witness_SlotTimerOpensNextSlot :
    ((openAtEntry 17 underWay).line.state = .synchronised
        ∧ (openAtEntry 17 underWay).line.slotOpen = some 17 ∧ (17 : Six) ≠ 63
        ∧ (openAtEntry 17 underWay).slots.governing.isSome = true
        ∧ (laneOf (openAtEntry 17 underWay).line .A).handed = false
        ∧ (laneOf (markHanded .A (openAtEntry 17 underWay)).line .A).handed = true)
      ∧ (synced (some 62) 7 State.reset.part).line.slotOpen = some 62
      ∧ (synced (some 63) 7 State.reset.part).line.slotOpen = some 63
      ∧ State.reset.part.line.slotOpen = none := by decide +kernel

/-- A slot open under a given entry. -/
def governedBy (g : Governing) (slot : Six) (p : Part) : Part :=
  { p with
    line := { p.line with slotOpen := some slot }
    slots := { p.slots with governing := some g } }

/-- A cell of the stop button of zone 1, and one of two words; an entry that rewrites it. -/
def buttonCell (payload : List Word) : List Word := makeCell 20 7 .data 3 payload
def buttonFields (payload : List Word) : Cell :=
  { slot := 20, cycle := 7, kind := .data, node := 3, length := payload.length, payload := payload,
    check := (buttonCell payload).getLast! }
def rewriting : Governing :=
  let e : SlotEntry := { bootstrapIn with slot := 20, disposition := .rewrite, fn := .stopButton, len := 3 }
  { index := 20, entry := e }

/-- A management cell addressed to node 62. -/
def orderCell : List Word := makeCell 62 7 .mgmt 3 [0xF801, 1]
def orderFields : Cell :=
  { slot := 62, cycle := 7, kind := .mgmt, node := 3, length := 2, payload := [0xF801, 1],
    check := orderCell.getLast! }
def taking : Governing := { index := 80, entry := bootstrapIn }

theorem witness_OutgoingCellFollowsDisposition :
    appliedDisposition underWay.cab.state { bootstrapIn with disposition := .pass } = .pass
      ∧ appliedDisposition underWay.cab.state generic.entry = .observe
      ∧ appliedDisposition underWay.cab.state owned.entry = .own
      ∧ (appliedDisposition underWay.cab.state bootstrapIn = .take ∧ orderFields.kind = .mgmt
        ∧ 1 ≤ orderFields.length ∧ (wordAt orderFields.payload 0).extractLsb' 10 6 = underWay.node
        ∧ (dataFields 62).kind ≠ .mgmt)
      ∧ (appliedDisposition underWay.cab.state rewriting.entry = .rewrite
        ∧ parseCell (buttonCell [1, 0, 7]) = some (buttonFields [1, 0, 7])
        ∧ passesIntegrity (buttonCell [1, 0, 7]) (buttonFields [1, 0, 7]) = true
        ∧ (1 : Fin 8).val = (wordAt (buttonFields [1, 0, 7]).payload 0).toNat % 8
        ∧ (buttonFields [1, 0]).length ≤ 2) := by decide +kernel

/-- A NULL cell of slot 17. -/
def nullFields : Cell :=
  { slot := 17, cycle := 7, kind := .null, node := 3, length := 0, payload := [],
    check := (makeCell 17 7 .null 3 []).getLast! }

/-- An entry with a lane select. -/
def selecting (x : LaneSelect) : Governing := { generic with entry := { generic.entry with select := x } }

/-- A BEACON of slot 0 with a broken check. -/
def damagedBeacon : List Word := (makeCell 0 5 .beacon 1 []).map (· ^^^ 1)

theorem damagedBeacon_not_valid (p : Part) : ¬ IsValid .A damagedBeacon p := fun ⟨c, ⟨h, i⟩, _⟩ => by
  have k : (parseCell damagedBeacon).any (passesIntegrity damagedBeacon) = false := by decide +kernel
  rw [h, Option.any_some, i] at k
  cases k

/-- Arrivals in slot 0; in slot 20, which nothing governs, valid and not; invalid, a damaged BEACON of slot 0
among them, and valid, in slot 17, under PASS, OBSERVE, TAKE and REWRITE; addressed to the part and not; a NULL
cell, and each lane select. -/
theorem witness_OutgoingCellFollowsDisposition_arrivals :
    ((synced (some 0) 7 State.reset.part).resetN = true
        ∧ (synced (some 0) 7 State.reset.part).line.state = .synchronised
        ∧ (synced (some 0) 7 State.reset.part).line.slotOpen = some 0
        ∧ beaconCycle (dataCell 17) = none ∧ beaconCycle [0] = none)
      ∧ ((openAtEntry 20 underWay).slots.governing = none
        ∧ IsValid .A (dataCell 20) (openAtEntry 20 underWay)
        ∧ ¬ IsValid .A [0] (openAtEntry 20 underWay))
      ∧ (beaconCycle damagedBeacon = none ∧ ¬ IsValid .A damagedBeacon (openAtEntry 17 underWay))
      ∧ ((openAtEntry 17 underWay).slots.governing = some generic
        ∧ ArrivesValid .A (makeCell 17 7 .null 3 []) nullFields generic (openAtEntry 17 underWay)
        ∧ (openAtEntry 17 underWay).slots.mark = none ∧ nullFields.kind = .null
        ∧ generic.entry.disposition ≠ .own ∧ generic.entry.select = .firstValid)
      ∧ (IsAddressed orderFields underWay ∧ ¬ IsAddressed (dataFields 62) underWay)
      ∧ ((selecting .none).entry.select = .none ∧ (selecting .A).entry.select = .A
        ∧ (selecting .B).entry.select = .B) := by
  refine ⟨by decide +kernel, ⟨by decide +kernel, ⟨dataFields 20, ⟨?_, ?_⟩, ?_, ?_, ?_, ?_⟩,
    fun ⟨_, ⟨h, _⟩, _⟩ => by simp [parseCell] at h⟩,
    ⟨?_, damagedBeacon_not_valid _⟩,
    ⟨?_, ⟨?_, ⟨?_, ?_⟩, ?_, ?_, ?_, ?_, ?_, ?_⟩, ?_, ?_, ?_, ?_⟩, ⟨⟨?_, ?_, ?_⟩, fun h => absurd h.1 ?_⟩,
    by decide +kernel⟩ <;> decide +kernel

/-- A valid cell, and words that are none. -/
theorem witness_ArrivalInOwnSlotCollides :
    ((openAtEntry 18 underWay).resetN = true ∧ (openAtEntry 18 underWay).line.state = .synchronised
        ∧ (openAtEntry 18 underWay).line.slotOpen = some 18 ∧ (18 : Six) ≠ 0
        ∧ (openAtEntry 18 underWay).slots.governing = some owned ∧ owned.entry.disposition = .own
        ∧ beaconCycle (dataCell 18) = none ∧ beaconCycle [0] = none)
      ∧ IsValid .A (dataCell 18) (openAtEntry 18 underWay)
      ∧ ¬ IsValid .A [0] (openAtEntry 18 underWay) := by
  refine ⟨by decide +kernel, ⟨dataFields 18, ⟨?_, ?_⟩, ?_, ?_, ?_, ?_⟩,
    fun ⟨_, ⟨h, _⟩, _⟩ => by simp [parseCell] at h⟩ <;> decide +kernel

/-- Stored under OBSERVE, TAKE and REWRITE; a handle word outside its range, and one that ends BRAKE_TEST. -/
theorem witness_FirstValidCopyIsStored :
    ((openAtEntry 17 underWay).resetN = true
        ∧ ArrivesValid .B (dataCell 17) (dataFields 17) generic (openAtEntry 17 underWay)
        ∧ (dataFields 17).kind ≠ .null ∧ IsStored .B (dataFields 17) generic (openAtEntry 17 underWay)
        ∧ generic.entry.fn = .generic)
      ∧ (ArrivesValid .A orderCell orderFields taking (governedBy taking 62 underWay)
        ∧ orderFields.kind ≠ .null ∧ IsStored .A orderFields taking (governedBy taking 62 underWay))
      ∧ (ArrivesValid .A (buttonCell [1, 0, 7]) (buttonFields [1, 0, 7]) rewriting
          (governedBy rewriting 20 underWay)
        ∧ IsStored .A (buttonFields [1, 0, 7]) rewriting (governedBy rewriting 20 underWay)
        ∧ 3 ≤ (buttonFields [1, 0, 7]).length)
      ∧ (governingAt 10 underWay).map (fun g => g.entry.fn) = some .handle
      ∧ (1000 < (1001 : Word).toInt ∧ (0xFC17 : Word).toInt < -1000 ∧ (0xFC7C : Word).toInt ≤ -900) := by
  refine ⟨⟨rfl, ⟨?_, ⟨?_, ?_⟩, ?_, ?_, ?_, ?_, ?_, ?_⟩, ?_, ⟨.inl ?_, .inl ?_⟩, ?_⟩,
    ⟨⟨?_, ⟨?_, ?_⟩, ?_, ?_, ?_, ?_, ?_, ?_⟩, ?_, ⟨.inr (.inr ⟨?_, ?_, ?_, ?_⟩), .inl ?_⟩⟩,
    ⟨⟨?_, ⟨?_, ?_⟩, ?_, ?_, ?_, ?_, ?_, ?_⟩, ⟨.inr (.inl ?_), .inl ?_⟩, ?_⟩, ?_, ?_⟩ <;> decide +kernel

/-- A first copy in the pairing mark. -/
def marked (first : PairingMark) (p : Part) : Part := { p with slots := { p.slots with mark := some first } }

/-- A first copy that the cell agrees with, and one it does not; a second copy under OBSERVE, TAKE and
REWRITE, the last with the acknowledge word and without it. -/
theorem witness_SecondCopyIsCompared :
    generic.entry.select = .firstValid
      ∧ (ArrivesValid .B (dataCell 17) (dataFields 17) generic
            (marked { kind := .data, length := 3, payload := [1, 2, 4] } (openAtEntry 17 underWay))
        ∧ appliedDisposition underWay.cab.state generic.entry = .observe)
      ∧ (taking.entry.select = .firstValid
        ∧ appliedDisposition underWay.cab.state taking.entry = .take ∧ IsAddressed orderFields underWay
        ∧ rewriting.entry.select = .firstValid
        ∧ appliedDisposition underWay.cab.state rewriting.entry = .rewrite
        ∧ 3 ≤ (buttonFields [1, 0, 7]).length ∧ (buttonFields [1, 0]).length ≤ 2)
      ∧ { kind := .data, length := 3, payload := [1, 2, 3] : PairingMark }.payload = (dataFields 17).payload
      ∧ { kind := .data, length := 3, payload := [1, 2, 4] : PairingMark }.payload
          ≠ (dataFields 17).payload := by
  refine ⟨?_, ⟨⟨?_, ⟨?_, ?_⟩, ?_, ?_, ?_, ?_, ?_, ?_⟩, ?_⟩, ⟨?_, ?_, ⟨?_, ?_, ?_⟩, ?_, ?_, ?_, ?_⟩, ?_, ?_⟩ <;>
    decide +kernel

theorem witness_CabStateDegradesDispositions :
    { bootstrapIn with disposition := .pass }.disposition = .pass
      ∧ (bootstrapIn.disposition = .take ∧ bootstrapIn.fn = .mgmtIn)
      ∧ (bootstrapOut 5).disposition = .own
      ∧ (rewriting.entry.disposition = .rewrite ∧ rewriting.entry.fn = .stopButton)
      ∧ generic.entry.disposition = .observe
      ∧ (Disposition.take = .take ∧ Fn.otherCab ≠ .mgmtIn)
      ∧ (Disposition.rewrite = .rewrite ∧ Fn.speed ≠ .stopButton) := by decide +kernel

/-- Slot 63 opens for the bootstrap entry in the cycle of the part's node number, with the lanes UP and with
both DOWN; slot 17 opens for an entry of another disposition. -/
theorem witness_OwnCellIsSentOnUpLanes :
    (synced (some 62) 62 State.reset.part).line.state = .synchronised
      ∧ (synced (some 62) 62 State.reset.part).line.slotOpen = some 62 ∧ (62 : Six) ≠ 63
      ∧ (governingAt (62 + 1) (synced (some 62) 62 State.reset.part)).map (fun g => g.entry.disposition)
          = some .own
      ∧ (laneOf (synced (some 62) 62 State.reset.part).line .A).up = true
      ∧ (∀ l, (laneOf (lanes seen seen (synced (some 62) 62 State.reset.part)).line l).up = false)
      ∧ generic.entry.disposition ≠ .own := by
  refine ⟨by decide +kernel, by decide +kernel, by decide +kernel, by decide +kernel, by decide +kernel,
    fun l => ?_, by decide +kernel⟩
  cases l <;> decide +kernel

/-- An OWN entry of a function. -/
def owning (fn : Fn) (single : Bool) : Governing :=
  { index := 4, entry := { bootstrapIn with disposition := .own, fn := fn, single := single, len := 1 } }

/-- ALARM plays. -/
def sounding3 : Part :=
  let alarm : SoundSource := { SoundSource.idle with
    state := .playing
    pattern := { first := 0, steps := 1, repeats := 1, tone := 3 }
    phaseOn := true }
  { underWay with sound := { Sound.reset with alarm := alarm } }

theorem witness_StandingContentIsEmitted :
    (State.reset.part.cab.state = .inactive ∧ (owning .pointRequestOut true).entry.fn = .pointRequestOut)
      ∧ cabActs underWay = true
      ∧ ((nextItem { underWay with junction := JunctionUnit.reset }).2 = none
        ∧ (nextItem underWay).2.isSome = true)
      ∧ ((owning .demandOut false).entry.fn = .demandOut ∧ (owning .demandOut false).entry.single = false)
      ∧ (owning .cabStatusOut true).entry.fn = .cabStatusOut
      ∧ (∀ z : Fin 8, (0 : Byte).getLsbD z.val = decide (underWay.stop.assistance[z] ≠ .clear))
      ∧ ((owning .doorOut true).entry.single = true
        ∧ (recordAt (putRecord 4 { SlotRecord.cleared with lastSent := some [0] } underWay) 4).lastSent
            = some (padTo 1 [word underWay.stop.doorOpen.toNat])
        ∧ (recordAt underWay 4).lastSent ≠ some (padTo 1 [word underWay.stop.doorOpen.toNat]))
      ∧ (playing underWay.sound .chime = none ∧ playing sounding3.sound .chime = some .alarm
        ∧ (getSource sounding3.sound .alarm).pattern.tone ≤ 15) := by decide +kernel

def response : Response := { node := 1, code := 1, tag := 1, result := .ok, data := [0, 0, 0, 0, 0] }

/-- A response queue of a length. -/
def answered (n : Nat) (p : Part) : Part := { p with mgmt := { p.mgmt with queue := List.replicate n response } }

theorem witness_ResponseQueueHoldsFour :
    (answered 3 State.reset.part).mgmt.queue.length < 4
      ∧ 4 ≤ (answered 4 State.reset.part).mgmt.queue.length
      ∧ (bootstrapOut 1).fn = .mgmtOut ∧ State.reset.part.mgmt.queue = []
      ∧ (answered 1 State.reset.part).mgmt.queue = response :: [] := by decide +kernel

/-! ### Witnesses: cab authority -/

/-- No entry of OTHER_CAB; a record of age 6; a record of age 5, with state fields 1, 4 and 15; the cab states
with the view INACTIVE, END at FORE and AFT, and ALARM idle and not. -/
theorem witness_OtherCabViewFollowsItsRecord :
    fnRecord State.reset.part .otherCab = none
      ∧ (fnRecord (putRecord 4 { fresh 0 with age := 6 } underWay) .otherCab).map (fun r => r.age) = some 6
      ∧ (fnRecord (putRecord 4 { fresh 0 with age := 5 } underWay) .otherCab).map (fun r => r.age)
          = some 5
      ∧ ((fnRecord (putRecord 4 (fresh 0x1000) underWay) .otherCab).map
            (fun r => (wordAt r.payload 0).toNat / 4096) = some 1
        ∧ (fnRecord (putRecord 4 (fresh 0x4000) underWay) .otherCab).map
            (fun r => (wordAt r.payload 0).toNat / 4096) = some 4
        ∧ (fnRecord (putRecord 4 (fresh 0xF000) underWay) .otherCab).map
            (fun r => (wordAt r.payload 0).toNat / 4096) = some 15)
      ∧ (CabState.activating ≠ underWay.cab.view ∧ underWay.cab.view = .inactive
        ∧ underWay.cab.state = .active ∧ (atStage .settle 0 underWay).cab.state = .activating
        ∧ (inState .hold underWay).cab.state = .hold ∧ (inState .stabled underWay).cab.state = .stabled)
      ∧ (underWay.cab.cabEnd.value = .fore ∧ (CabAuthority.reset .aft).cabEnd.value = .aft)
      ∧ (underWay.sound.alarm.state = .idle ∧ sounding3.sound.alarm.state ≠ .idle
        ∧ (patternOf underWay.tables.cadence.words .alarm).steps ≠ 0) := by
  decide +kernel

/-- INACTIVE with the drive request set, and a view of the other cab. -/
def requesting (view : CabState) (p : Part) : Part :=
  { p with cab := { p.cab with driveRequest := true, view := view } }

theorem witness_AttemptReadsTheOtherCab :
    (requesting .stabled (synced (some 5) 7 State.reset.part)).cab.state = .inactive
      ∧ (requesting .stabled (synced (some 5) 7 State.reset.part)).cab.driveRequest = true
      ∧ lineLost (requesting .stabled (synced (some 5) 7 State.reset.part)) = false
      ∧ (requesting .hold (synced (some 5) 7 State.reset.part)).cab.view ≠ .inactive
      ∧ (requesting .hold (synced (some 5) 7 State.reset.part)).cab.view ≠ .stabled
      ∧ lineLost State.reset.part = true := by decide +kernel

/-- A pass, a failed structural check, a sum that differs and a FAULTY mark, at the first table and the
last. -/
theorem witness_SettleAndTableCheckEndInTurn :
    ((atStage .settle 8 State.reset.part).cab.state = .activating
        ∧ (atStage .settle 8 State.reset.part).cab.stage = .settle
        ∧ (atStage .settle 8 State.reset.part).cab.settleLength
            ≤ (atStage .settle 8 State.reset.part).cab.count)
      ∧ (atStage .settle 7 State.reset.part).cab.count
          < (atStage .settle 7 State.reset.part).cab.settleLength
      ∧ ((checking .slot State.reset.part).cab.state = .activating
        ∧ (checking .slot State.reset.part).cab.stage = .tableCheck
        ∧ (checking .slot State.reset.part).cab.table = some .slot
        ∧ structureOk (checking .slot State.reset.part).tables .slot = false)
      ∧ (structureOk State.reset.part.tables .route = true
        ∧ tableSum State.reset.part.tables.route.words = State.reset.part.tables.route.ref
        ∧ State.reset.part.tables.route.faulty = false
        ∧ { State.reset.part.tables.route with ref := 1 }.ref ≠ tableSum State.reset.part.tables.route.words
        ∧ { State.reset.part.tables.route with faulty := true }.faulty ≠ false)
      ∧ (structureOk State.reset.part.tables .param = true ∧ tableCode .envelope = tableCode .param + 1) := by
  decide +kernel

/-- lock_count is 4: a fresh record at counts 2 and 3, a stale one, and no SPEED entry. -/
theorem witness_EntryToActiveOpensTheRow_count :
    ((atStage .speedLock 3 underWay).cab.state = .activating
        ∧ (atStage .speedLock 3 underWay).cab.stage = .speedLock)
      ∧ (lockCountNeeded underWay = 4 ∧ 2 + 1 < 4 ∧ 4 ≤ 3 + 1)
      ∧ (fnRecord (putRecord 1 { fresh 0 with age := 3 } underWay) .speed).map
          (fun x => decide (x.age ≤ speedStale underWay)) = some true
      ∧ (fnRecord (putRecord 1 { fresh 0 with age := 4 } underWay) .speed).map
          (fun x => decide (speedStale underWay < x.age)) = some true
      ∧ fnRecord State.reset.part .speed = none := by decide +kernel

theorem witness_EntryToActiveOpensTheRow :
    (atStage .speedLock 4 (cadence State.reset.part)).cab.state = .activating
      ∧ (atStage .speedLock 4 (cadence State.reset.part)).cab.stage = .speedLock
      ∧ lockCountNeeded (atStage .speedLock 4 (cadence State.reset.part))
          ≤ (atStage .speedLock 4 (cadence State.reset.part)).cab.count
      ∧ departureWarning (cadence State.reset.part) = true
      ∧ (cadence State.reset.part).sound.depart.state = .idle
      ∧ (patternOf (cadence State.reset.part).tables.cadence.words .depart).steps ≠ 0
      ∧ (patternOf (cadence State.reset.part).tables.cadence.words .alarm).steps ≠ 0
      ∧ (requesting .hold State.reset.part).cab.view ≠ .inactive := by
  decide +kernel

/-- ACTIVE with a pending exit, at rest. -/
def leaving (x : PendingExit) : Part := { underWay with cab := { underWay.cab with pending := x } }

/-- A waiting HOLD, at rest, under way, and set by an evaluation at rest with D above 0; OFF with its row. -/
theorem witness_WaitingHoldIsTakenAtRest :
    ((leaving .hold).cab.state = .active ∧ (leaving .hold).cab.pending = .hold
        ∧ (leaving .hold).traction.demand.v = 0 ∧ (leaving .hold).traction.demand.d ≤ 0)
      ∧ { (leaving .hold).traction.demand with v := 1 }.v ≠ 0
      ∧ 0 < { (leaving .hold).traction.demand with d := 1 }.d
      ∧ ((leaving .off).cab.pending = .off ∧ (setRow .cab 0 (leaving .off)).caps.cab = some 0) := by
  decide +kernel

theorem witness_TeardownClearsTheUnits :
    (leaving .off).cab.state = .active ∧ (leaving .off).cab.pending = .off
      ∧ (leaving .off).traction.demand.v = 0 ∧ (leaving .off).traction.demand.d ≤ 0
      ∧ JunctionOk (leaving .off) :=
  ⟨by decide +kernel, by decide +kernel, by decide +kernel, by decide +kernel, junctionOk_underWay⟩

/-- STABLED with a scrub count, a pass and a pending exit. -/
def stabled (count : Nat) (pass : Option TableId) (x : PendingExit) (p : Part) : Part :=
  { p with cab := { p.cab with state := .stabled, scrubCount := count, scrubPass := pass, pending := x } }

theorem witness_StabledScrubsAndLeaves :
    ((stabled 256 none .wake State.reset.part).cab.state = .stabled
        ∧ (stabled 256 none .wake State.reset.part).cab.scrubPass = none
        ∧ scrubInterval (stabled 256 none .wake State.reset.part) ≤ 256
        ∧ tableSum State.reset.part.tables.slot.words = State.reset.part.tables.slot.ref
        ∧ tableSum (List.replicate 240 0) ≠ { State.reset.part.tables.slot with ref := 1 }.ref)
      ∧ (stabled 256 (some .route) .drive State.reset.part).cab.scrubPass.isSome = true
      ∧ (lineLost (stabled 0 none .drive State.reset.part) = true
        ∧ lineLost (stabled 0 none .drive (synced (some 5) 7 State.reset.part)) = false)
      ∧ (stabled 0 none .drive (requesting .active State.reset.part)).cab.view ≠ .inactive := by
  decide +kernel

/-- Scrub counts 254, 255 and 4095 before a cycle start; a pass at PARAM, MARKER and ROUTE, and the table after
each. -/
theorem witness_StabledScrubsAndLeaves_cycles :
    (underWay.cab.state ≠ .stabled ∧ (stabled 254 none .none underWay).cab.state = .stabled)
      ∧ (scrubInterval underWay = 256 ∧ min 4095 (254 + 1) < 256 ∧ 256 ≤ min 4095 (255 + 1)
        ∧ 256 ≤ min 4095 (4095 + 1))
      ∧ ((stabled 3 (some .param) .none underWay).cab.scrubPass = some .param
        ∧ TableId.param ≠ .route ∧ tableCode .envelope = tableCode .param + 1
        ∧ tableCode .route = tableCode .marker + 1)
      ∧ (tableSum (tableAt underWay.tables .route).words = (tableAt underWay.tables .route).ref
        ∧ tableSum (List.replicate 1280 0) ≠ { underWay.tables.route with ref := 1 }.ref) := by
  decide +kernel

/-- The desk lines: KEY wires and END, and the recognised KEY with its previous sample. -/
def desk (wires : BitVec 2) (aft : Bool) (key : Recogniser Key) (p : Part) : Part :=
  { p with lines := { p.lines with key := wires, aft := aft }, cab := { p.cab with key := key } }

/-- A first sample; DRIVE seen twice after a first sample OFF; and each wire pair read, with a value
recognised, in every cab state. -/
theorem witness_RecognisedKeyActsByCabState :
    ({ value := .off, prev := none } : Recogniser Key).prev = none
      ∧ ([Key.off, .drive, .drive].foldl sampled { value := .off, prev := none }).value ≠ Key.off
      ∧ ((Key.drive = .drive ↔ (2 : BitVec 2) = 2) ∧ (Key.drive = .hold ↔ (2 : BitVec 2) = 1)
        ∧ (Key.hold = .drive ↔ (1 : BitVec 2) = 2) ∧ (Key.hold = .hold ↔ (1 : BitVec 2) = 1)
        ∧ (Key.off = .drive ↔ (3 : BitVec 2) = 2) ∧ (Key.off = .hold ↔ (3 : BitVec 2) = 1)
        ∧ (CabEnd.aft = .aft ↔ true = true) ∧ (CabEnd.fore = .aft ↔ false = true))
      ∧ ((desk 2 false { value := .off, prev := some .drive } State.reset.part).cab.key.prev = some .drive
        ∧ (desk 2 false { value := .off, prev := some .drive } State.reset.part).cab.key.value ≠ .drive)
      ∧ (State.reset.part.cab.state = .inactive ∧ (atStage .settle 0 underWay).cab.state = .activating
        ∧ underWay.cab.state = .active ∧ (stabled 0 none .wake underWay).cab.state = .stabled)
      ∧ (underWay.cab.pending = .none ∧ (leaving .hold).cab.pending ≠ .none
        ∧ underWay.traction.demand.v = 0 ∧ underWay.traction.demand.d ≤ 0)
      ∧ (stabled 0 none .drive underWay).cab.pending = .drive
      ∧ ((inState .hold underWay).cab.state = .hold ∧ JunctionOk (inState .hold underWay)) :=
  ⟨rfl, by decide +kernel, by decide +kernel, by decide +kernel, by decide +kernel, by decide +kernel,
    by decide +kernel, by decide +kernel, junctionOk_underWay⟩

/-! ### Witnesses: speed caps and traction -/

theorem witness_PermittedSpeedIsTheLeastRow :
    getRow underWay.caps (.junction 0) = some 100 ∧ TablesOk underWay
      ∧ (∃ r, getRow State.reset.part.caps r = some 0) :=
  ⟨by decide +kernel, tablesOk_underWay, .doors, by decide +kernel⟩

/-- The speed lock in a state, over a SPEED record of an age. -/
def lock (locked : Bool) (count age : Nat) (p : Part) : Part :=
  { (putRecord 1 { fresh 100 with age := age } p) with
    traction := { p.traction with suspended := false, locked := locked, lockCount := count } }

/-- The first distance count; counts 0, 1000 and 1001 on from one; a committed record below its release
distance of 200 and at it; and the speed lock in each of its cases. -/
theorem witness_SpeedLockFollowsTheRecord :
    (State.reset.part.traction.prevDistance = none
        ∧ ((5 : Word) - 5).toNat = 0 ∧ ((1005 : Word) - 5).toNat = 1000 ∧ ((1006 : Word) - 5).toNat = 1001
        ∧ ((4 : Word) - 65535).toNat = 5)
      ∧ ((1000 : Word).toNat ≤ 1000 ∧ 1000 < (1001 : Word).toNat)
      ∧ (openAt (opened (record 1 .committed 0) underWay) 0 = some (record 1 .committed 0)
        ∧ (routeEntry underWay 0).releaseDistance 1 = 200
        ∧ openAt underWay 1 = none ∧ (record 1 .requested 10).state ≠ .committed)
      ∧ ((lock true 15 4 underWay).traction.suspended = false ∧ speedFresh (lock true 15 4 underWay) = false)
      ∧ (speedFresh (lock false 4 3 underWay) = true
        ∧ lockCountNeeded (lock false 4 3 underWay) ≤ (lock false 4 3 underWay).traction.lockCount)
      ∧ speedFresh (lock true 14 3 underWay) = true ∧ speedFresh (lock false 0 255 underWay) = false
      ∧ ((fnRecord (lock true 14 3 underWay) .speed).map
            (fun x => decide (x.age ≤ speedStale underWay)) = some true
        ∧ (fnRecord (lock true 14 4 underWay) .speed).map
            (fun x => decide (speedStale underWay < x.age)) = some true
        ∧ fnRecord State.reset.part .speed = none)
      ∧ { underWay.traction with suspended := true }.suspended = true
      ∧ ((inState .inactive underWay).cab.state = .inactive
        ∧ (inState .inactive underWay).traction.suspended = false
        ∧ { loss := none, activating := false, suspended := true : CycleStart }.suspended = true) := by
  decide +kernel

/-- HOLD SLOW with v_eff 0, a fresh SPEED record of 100, and KEY at OFF for the second time. -/
def keyOffInHoldSlow : Part :=
  let p := putRecord 1 (fresh 100) (desk 0 false { value := .hold, prev := some .off } (inState .hold underWay))
  { p with traction := { p.traction with vEff := 0, suspended := true, locked := false, lockCount := 2 } }

/-- The desk comes first and tears the part down; the speed input begins again at the next cycle start (R85). -/
theorem test_teardown_from_hold_slow_keeps_speed_input :
    let p := presentCycle none [] keyOffInHoldSlow
    let q := presentCycle none [] p
    (p.cab.state, p.traction.suspended, p.traction.vEff, p.traction.lockCount) = (.inactive, false, 0, 2)
      ∧ (q.traction.vEff, q.traction.lockCount) = (100, 3) := by
  decide +kernel

/-- In ACTIVE with the handle at 500, no row but LINE and v_eff 400. -/
theorem witness_PositiveDemandIsBelowThePermittedSpeed :
    cabActs { underWay with caps := CapTable.reset 700 } = true
      ∧ 0 < (evaluate { underWay with
          caps := { CapTable.reset 700 with cab := none, doors := none }
          traction := { underWay.traction with dPrev := 0 } }).traction.demand.d := by
  decide +kernel

/-- P is 100 and v_eff 400, above P + M; v_eff 100, at P, in an episode and in none; v_eff 99. A fresh handle
at 500 and at −900, and a stale one; the emergency condition active, clear and stale; an episode in progress. -/
theorem witness_DemandFollowsTheFourStages :
    (cabActs underWay = true ∧ (evaluate underWay).traction.latch = false
        ∧ permittedSpeed underWay + overspeedMargin underWay ≤ underWay.traction.vEff
        ∧ underWay.traction.episode = false
        ∧ (patternOf underWay.tables.cadence.words .alarm).steps ≠ 0)
      ∧ (permittedSpeed underWay = 100 ∧ overspeedMargin underWay = 30
        ∧ { underWay.traction with vEff := 100, episode := true }.episode = true)
      ∧ ((inState .hold underWay).cab.state = .hold ∧ cabActs (inState .hold underWay) = true
        ∧ (atStage .settle 0 underWay).cab.state = .activating)
      ∧ ((fnRecord underWay .handle).map (fun x => decide (x.age ≤ handleStale underWay)) = some true
        ∧ (fnRecord (putRecord 0 (fresh 0xFC7C) underWay) .handle).map
            (fun x => (wordAt x.payload 0).toInt) = some (-900)
        ∧ (fnRecord (putRecord 0 SlotRecord.cleared underWay) .handle).map
            (fun x => decide (handleStale underWay < x.age)) = some true)
      ∧ ((fnRecord (putRecord 2 (fresh 1) underWay) .emergency).map
            (fun x => (decide (x.age ≤ 3), (wordAt x.payload 0).getLsbD 0)) = some (true, true)
        ∧ (fnRecord underWay .emergency).map (fun x => (wordAt x.payload 0).getLsbD 0) = some false
        ∧ (fnRecord (putRecord 2 SlotRecord.cleared underWay) .emergency).map
            (fun x => decide (3 < x.age)) = some true)
      ∧ underWay.tables.envelopeValid = false := by
  decide +kernel

/-- Six breakpoints in use with a split, at speeds 0, 200, 400, 600, 800 and 1000, and LOW_ADH as given. -/
def enveloped (split : Nat) (lowAdh : Bool) : Part :=
  let words := (paramDefaults.set 20 6).set 21 (word split)
  let points := (List.range 6).flatMap fun i => [word (200 * i), word (900 - 100 * i), word (1000 - 50 * i)]
  let tables := putTable (putTable underWay.tables .param (Table.reset words)) .envelope
    (Table.reset (points ++ List.replicate 30 0))
  { underWay with
    tables := { tables with envelopeValid := true }
    traction := { underWay.traction with lowAdh := { value := lowAdh, prev := none } } }

/-- Breakpoints; regions N and L of an envelope of 6 split at 4, and region N alone at splits 6 and 16. -/
theorem witness_LimitsInterpolateBetweenBreakpoints :
    ascending [⟨400, 1000, 1000⟩, ⟨700, 900, 900⟩, ⟨1000, 800, 1000⟩] = true
      ∧ 400 ≤ 400 ∧ 1000 ≤ 1000 ∧ 400 ≤ 699 ∧ 699 < 700
      ∧ ((enveloped 4 true).tables.envelopeValid = true ∧ param (enveloped 4 true) 20 = 6
        ∧ param (enveloped 4 true) 21 = 4 ∧ (enveloped 4 true).traction.lowAdh.value = true
        ∧ (enveloped 4 false).traction.lowAdh.value = false)
      ∧ 6 ≤ param (enveloped 6 true) 21 ∧ 16 ≤ param (enveloped 16 true) 21
      ∧ underWay.tables.envelopeValid = false ∧ TablesOk underWay
      ∧ TablesOk (enveloped 4 true) ∧ TablesOk (enveloped 4 false) ∧ TablesOk (enveloped 6 true)
      ∧ TablesOk (enveloped 16 true) :=
  ⟨by decide +kernel, by decide, by decide, by decide, by decide, by decide +kernel, by decide +kernel,
    by decide +kernel, by decide +kernel, tablesOk_underWay, tablesOk_of_free rfl (by decide +kernel),
    tablesOk_of_free rfl (by decide +kernel), tablesOk_of_free rfl (by decide +kernel),
    tablesOk_of_free rfl (by decide +kernel)⟩

/-! ### Witnesses: junction and stop units -/

theorem witness_SelectionChangesRestartRequests :
    (∀ i, underWay.junction.selectionFrom = some i → 10 < (recordAt underWay i).age)
      ∧ underWay.junction.selection ≠ 0 ∧ cabLive underWay = true ∧ cabLive State.reset.part = false
      ∧ openAt underWay 1 = none
      ∧ (openAt (opened (record 2 .confirmed 0) underWay) 0 = some (record 2 .confirmed 0)
        ∧ (routeEntry underWay 0).dflt ≠ 2 ∧ countsDistance (record 2 .confirmed 0) = false
        ∧ ((routeEntry underWay 0).route? (routeEntry underWay 0).dflt).isSome = true)
      ∧ countsDistance (record 2 .committed 0) = true
      ∧ ((15 : BitVec 4).toNat = (0xFFFF : Word).toNat % 16 ∧ (2 : BitVec 4) = underWay.junction.selection
        ∧ (1 : BitVec 4) ≠ underWay.junction.selection
        ∧ ((routeEntry underWay 0).route? 1).isSome = true ∧ ((routeEntry underWay 0).route? 3).isSome = false)
      ∧ (recordAt underWay 0).age ≤ 10 :=
  ⟨(fun _ h => by cases h), by decide +kernel⟩

/-- A timeout and a count below it; the route 1 of junction 0 sets point 0 RIGHT, and is at address 1. -/
theorem witness_RequestTimesOutToFault :
    (cabLive underWay = true ∧ openAt underWay 0 = some (record 1 .requested 10)
        ∧ (routeEntry underWay 0).timeout ≤ (record 1 .requested 10).count
        ∧ underWay.sound.junctionFault = anyFault underWay.junction.list
        ∧ (record 1 .requested 9).count < (routeEntry underWay 0).timeout)
      ∧ (min 65535 (8 + 1) < (routeEntry underWay 0).timeout
        ∧ (routeEntry underWay 0).timeout ≤ min 65535 (9 + 1)
        ∧ (routeEntry underWay 0).timeout ≤ min 65535 (65535 + 1))
      ∧ cabLive State.reset.part = false ∧ openAt underWay 3 = none
      ∧ ((routeEntry underWay 0).address = 1
        ∧ ((routeEntry underWay 0).route? 1).map (fun r => r.settings) = some [{ point := 0, right := true }])
      ∧ ((0x0021 : Word).toNat / 16 % 4 = 2 ∧ (0x0021 : Word).getLsbD 0 = true
        ∧ (0x0011 : Word).toNat / 16 % 4 ≠ 2 ∧ (0x0021 : Word).extractLsb' 8 3 = 0)
      ∧ (record 1 .confirmed 0).state = .confirmed ∧ (record 1 .committed 0).state = .committed
      ∧ inFault (record 1 (.fault .timeout) 0) = true := by
  decide +kernel

def release : Release := { address := 1, route := 1 }

theorem witness_ArbiterServesReleasesFirst :
    { underWay.junction with queue := [release] }.queue = release :: []
      ∧ (underWay.junction.queue = [] ∧ (0 : Fin 4) = underWay.junction.arbiter + 0
        ∧ (∀ j : Fin 4, j < 0 → isRequested underWay (underWay.junction.arbiter + j) = false)
        ∧ (openAt underWay 0).map (fun r => r.state) = some .requested)
      ∧ (∀ pos, isRequested State.reset.part pos = false) := by
  decide +kernel

/-- Marker 5 of junction 0 with a role; a second entry of its id that the first one hides. -/
def marker (role : Nat) (p : Part) : Part :=
  let words := [5, word role, 5, 0x0103] ++ List.replicate 252 0
  { p with tables := putTable p.tables .marker (Table.reset words) }

/-- Every position open, for junctions 10 to 13. -/
def fullList : Vector (Option JunctionRecord) 4 :=
  Vector.ofFn fun pos => some { record 1 .requested 0 with junction := BitVec.ofNat 6 (10 + pos.val) }

theorem witness_MarkersActOnTheirJunction :
    (underWay.junction.lastMarker = none ∧ cabLive underWay = true ∧ cabLive State.reset.part = false
        ∧ { underWay.junction with lastMarker := some 255 }.lastMarker = some (255 : Byte)
        ∧ (0 : Byte) = 255 + 1 ∧ (1 : Byte) ≠ 255 + 1)
      ∧ ((∀ m ∈ markerEntries (marker 1 underWay).tables.marker.words, m.id ≠ 6)
        ∧ (markerEntries (marker 3 underWay).tables.marker.words)[0]?
            = some { id := 5, junction := 0, role := .clear }
        ∧ (routeEntry underWay 0).defined = true ∧ (routeEntry underWay 1).defined = false)
      ∧ ((∀ pos, ∃ r, openAt { underWay with junction := { underWay.junction with list := fullList } } pos
            = some r ∧ r.junction ≠ 0)
        ∧ openAt State.reset.part 0 = none ∧ openAt underWay 1 = none ∧ openAt underWay 0 ≠ none
        ∧ ((routeEntry underWay 0).route? 1).isSome = true ∧ ((routeEntry underWay 0).route? 2).isSome = false)
      ∧ (openAt (opened (record 1 .confirmed 0) underWay) 0 = some (record 1 .confirmed 0)
        ∧ openAt (opened (record 1 .committed 0) underWay) 0 = some (record 1 .committed 0)
        ∧ (record 1 (.fault .timeout) 0).state ≠ .fault .commitUnconfirmed)
      ∧ (∀ pos r, openAt State.reset.part pos = some r → r.junction ≠ 0)
      ∧ openAt underWay 0 = some (record 1 .requested 10) ∧ (record 1 .requested 10).junction = 0
      ∧ (∀ pos' r', pos' < (0 : Fin 4) → openAt underWay pos' = some r' → r'.junction ≠ 0)
      ∧ (record 1 .requested 10).setSent = true ∧ underWay.junction.queue.length < 4
      ∧ 4 ≤ (List.replicate 4 release).length
      ∧ { record 1 .requested 10 with setSent := false }.setSent = false := by
  refine ⟨by decide +kernel, by decide +kernel, ⟨fun pos => ⟨{ record 1 .requested 0 with junction := BitVec.ofNat 6 (10 + pos.val) },
      by simp [openAt, fullList], ?_⟩, by decide +kernel⟩, by decide +kernel, fun pos r h => ?_, by decide +kernel, by decide +kernel, fun pos' _ h => by omega, by decide +kernel,
    by decide +kernel, by decide +kernel, by decide +kernel⟩
  · revert pos; decide +kernel
  · simp [openAt, State.reset, JunctionUnit.reset] at h

/-- Door words: every zone shut and none released, zone 7 released, zone 0 open; at rest and at a stop; and
the door status of `driven`, at the age that is not stale and at the one that is. -/
theorem witness_DoorsRowFollowsDoorStatus :
    (zoneMask underWay = 255 ∧ (∀ z : Fin 8, (zoneMask underWay).getLsbD z.val = true → (255 : Byte).getLsbD z.val = true)
        ∧ ¬ (∀ z : Fin 8, (zoneMask underWay).getLsbD z.val = true → (254 : Byte).getLsbD z.val = true)
        ∧ (0x80 : Byte) ≠ 0)
      ∧ (cabLive underWay = true ∧ underWay.stop.phase = .running
        ∧ { underWay.stop with phase := .atStop }.phase = .atStop ∧ cabLive State.reset.part = false)
      ∧ (departureWarning underWay = true ∧ (patternOf underWay.tables.cadence.words .depart).steps ≠ 0)
      ∧ (recordAt underWay 3).age ≤ doorStale underWay
      ∧ underWay.stop.door = some { closed := 255, released := 0, source := 3 }
      ∧ hasFn underWay .doorStatus = true
      ∧ (recordAt (putRecord 3 { fresh 255 with age := 5 } underWay) 3).age ≤ doorStale underWay
      ∧ doorStale underWay < (recordAt (putRecord 3 { fresh 255 with age := 6 } underWay) 3).age
      ∧ State.reset.part.stop.door = none := by
  decide +kernel

/-- Zone 7's counters, known and changed; zone 7 pushed: running; at a stop, released and closed; at a stop,
released and open. -/
theorem witness_StopPushByPhaseAndZone :
    (cabLive underWay = true ∧ (zoneMask underWay).getLsbD 7 = true ∧ cabLive State.reset.part = false
        ∧ (7 : Fin 8).val = (0xFFFF : Word).toNat % 8 ∧ underWay.stop.lastStop[7] = none
        ∧ (underWay.stop.lastStop.set 7 (some 255))[7] = some (255 : Byte)
        ∧ (255 : Byte) ≠ highByte 0x0000)
      ∧ underWay.stop.phase = .running ∧ underWay.stop.request = false ∧ cabActs underWay = true
      ∧ (patternOf underWay.tables.cadence.words .stop).steps ≠ 0
      ∧ { underWay.stop with phase := .atStop }.phase = .atStop
      ∧ ({ closed := 0x80, released := 0x80, source := 3 : DoorStatus }.released.getLsbD 7 = true
        ∧ { closed := 0x80, released := 0x80, source := 3 : DoorStatus }.closed.getLsbD 7 = true)
      ∧ { closed := 0, released := 0x80, source := 3 : DoorStatus }.closed.getLsbD 7 = false := by
  decide +kernel

/-! ### Witnesses: the sound unit -/

/-- STOP plays, with ALARM as given. -/
def chiming (stop alarm : SoundSource) : Sound := { Sound.reset with stop := stop, alarm := alarm }

/-- A line whose previous sample is PRESSED, recognised released, and the other way round. -/
def pressing : Recogniser Bool := { value := false, prev := some true }
def releasing : Recogniser Bool := { value := true, prev := some false }

/-- A press and a release recognised, and a first sample; DRIVER_BELL and ALARM in their states, the DEPART
source PLAYING and not; ALARM playing over a waiting STOP; the horn at the ends of its counts. -/
theorem witness_RecognisedLinesAndCountedSoundsAct_lines :
    (pressing.prev = some true ∧ pressing.value ≠ true ∧ releasing.prev = some false
        ∧ releasing.value ≠ false ∧ Sound.reset.bellBtn.prev ≠ some true)
      ∧ (cabLive underWay = true ∧ cabLive State.reset.part = false)
      ∧ ((playingStep 2 true 2).state = .playing ∧ SoundSource.idle.state = .idle
        ∧ { SoundSource.idle with state := .waiting }.state = .waiting
        ∧ (patternOf underWay.tables.cadence.words .driverBell).steps ≠ 0)
      ∧ (hornMin underWay = 10 ∧ hornMax underWay = 1000 ∧ min 3000 (8 + 1) < 10
        ∧ 10 ≤ min 3000 (9 + 1) ∧ 1000 ≤ min 3000 (999 + 1) ∧ 1000 ≤ min 3000 (3000 + 1))
      ∧ ((playingStep 2 true 2).begun = false ∧ { playingStep 2 true 2 with phaseCount := 1 }.phaseCount ≤ 1
        ∧ (playingStep 2 true 2).phaseOn = true ∧ 0 < (playingStep 2 true 2).offCount) := by
  decide +kernel

theorem witness_RecognisedLinesAndCountedSoundsAct :
    (playing (chiming (playingStep 2 true 2) SoundSource.idle) .chime = some .stop
        ∧ (playingStep 2 true 2).phaseCount = 0 ∧ (playingStep 2 true 2).phaseOn = true
        ∧ 0 < (playingStep 2 true 2).offCount)
      ∧ playing Sound.reset .chime = none
      ∧ ((playingStep 2 true 2).begun = false ∧ { playingStep 2 true 2 with begun := true }.begun = true
        ∧ 1 < { playingStep 2 true 2 with phaseCount := 2 }.phaseCount)
      ∧ { Sound.reset with horn := .on, hornCount := 10 }.hornBtn.value = false
      ∧ (hornMin State.reset.part ≤ 10 ∧ 9 < hornMin State.reset.part)
      ∧ (hornMax State.reset.part ≤ 1000 ∧ 999 < hornMax State.reset.part) := by
  decide +kernel

/-- One source plays and another is as given. -/
def pair (x : Source) (v : SoundSource) (y : Source) (w : SoundSource) : Sound :=
  putSource (putSource Sound.reset y w) x v

theorem channels_ok_one {snd : Sound} {x : Source} (hp : (getSource snd x).state = .playing)
    (hv : (getSource snd x).pattern.steps ≠ 0)
    (other : ∀ z, z ≠ x → (getSource snd z).state = .idle ∨ (getSource snd z).state = .waiting) :
    ChannelsOk snd := by
  refine ⟨fun a b _ ha hb => ?_, fun z hz => ?_, fun z hz => ?_⟩
  · have only : ∀ z, isPlaying snd z = true → z = x := by
      intro z hz
      by_contra hne
      rcases other z hne with h | h <;> simp [isPlaying, h] at hz
    rw [only a ha, only b hb]
  · by_cases hne : z = x
    · rw [hne, hp] at hz; cases hz
    · rcases other z hne with h | h <;> rw [h] at hz <;> cases hz
  · by_cases hne : z = x
    · rw [hne]; exact hv
    · rcases other z hne with h | h <;> simp [h] at hz

theorem channels_ok_pair {x y : Source} {v w : SoundSource} (hp : v.state = .playing)
    (hv : v.pattern.steps ≠ 0) (hw : w.state = .idle ∨ w.state = .waiting) : ChannelsOk (pair x v y w) := by
  have self : getSource (pair x v y w) x = v := getSource_putSource_self _ _ _
  refine channels_ok_one (by rw [self]; exact hp) (by rw [self]; exact hv) fun z hz => ?_
  rw [pair, getSource_putSource_ne (Ne.symm hz)]
  by_cases hy : y = z
  · subst hy; rw [getSource_putSource_self]; exact hw
  · rw [getSource_putSource_ne hy]; exact .inl (by cases z <;> rfl)

def waiting : SoundSource := { playingStep 1 false 0 with state := .waiting }

/-- ALARM plays and STOP waits: ACK_BTN hands the channel over. -/
theorem witness_RecognisedLinesAndCountedSoundsAct_ack :
    ChannelsOk (pair .alarm (playingStep 2 true 2) .stop waiting)
      ∧ (pair .alarm (playingStep 2 true 2) .stop waiting).alarm.state = .playing
      ∧ isReady (pair .alarm (playingStep 2 true 2) .stop waiting) .stop = true
      ∧ isReady (pair .alarm (playingStep 2 true 2) .stop waiting) .assist = false
      ∧ waiting.pattern.steps ≠ 0 :=
  ⟨channels_ok_pair rfl (by decide +kernel) (.inr rfl), by decide +kernel⟩

/-- STOP in its OFF phase, and in an ON phase with off count 0, with one count left. -/
theorem witness_StepEndAdvancesTheChannel_cycle :
    playing (pair .stop { playingStep 2 false 2 with phaseCount := 1 } .alarm SoundSource.idle) .chime
        = some .stop
      ∧ (playingStep 2 false 2).phaseOn = false ∧ (playingStep 2 true 0).offCount = 0
      ∧ (playingStep 2 true 0).begun = false ∧ { playingStep 2 true 0 with phaseCount := 1 }.phaseCount ≤ 1 := by
  decide +kernel

/-- STOP as given, with ALARM waiting on an empty pattern and ASSIST as given. -/
def underEmpty (stop assist : SoundSource) : Sound :=
  putSource (pair .stop stop .assist assist) .alarm
    { waiting with pattern := { waiting.pattern with steps := 0 } }

theorem channels_ok_underEmpty {v w : SoundSource} (hp : v.state = .playing) (hv : v.pattern.steps ≠ 0)
    (hw : w.state = .idle ∨ w.state = .waiting) : ChannelsOk (underEmpty v w) :=
  channels_ok_one (x := .stop) hp hv fun z hz => by
    cases z
    · exact .inl rfl
    · exact .inl rfl
    · exact .inr rfl
    · exact hw
    · exact absurd rfl hz

/-- STOP at the end of its first step of two, of a pass with another left, of a pass that repeats for ever,
and of its last pass; DRIVER_BELL held, and marked released; STOP with ALARM waiting, DEPART with DRIVER_BELL
waiting; and STOP with ALARM waiting on an empty pattern, with ASSIST idle and with ASSIST waiting. -/
theorem witness_StepEndAdvancesTheChannel :
    (ChannelsOk (pair .stop (playingStep 2 false 0) .alarm SoundSource.idle)
        ∧ playing (pair .stop (playingStep 2 false 0) .alarm SoundSource.idle) .chime = some .stop
        ∧ stepIsOver (playingStep 2 false 0) = true)
      ∧ (ChannelsOk (pair .driverBell (playingStep 1 false 0) .depart SoundSource.idle)
        ∧ playing (pair .driverBell (playingStep 1 false 0) .depart SoundSource.idle) .bell
            = some .driverBell)
      ∧ (ChannelsOk (pair .stop (playingStep 2 false 0) .alarm waiting)
        ∧ CanPlay (pair .stop (playingStep 2 false 0) .alarm waiting) .alarm)
      ∧ (ChannelsOk (pair .depart (playingStep 2 false 0) .driverBell waiting)
        ∧ CanPlay (pair .depart (playingStep 2 false 0) .driverBell waiting) .driverBell)
      ∧ (∀ w, w = SoundSource.idle ∨ w = waiting →
        ChannelsOk (underEmpty (playingStep 2 false 0) w)
          ∧ playing (underEmpty (playingStep 2 false 0) w) .chime = some .stop
          ∧ CompletesAtOnce (underEmpty (playingStep 2 false 0) w) .alarm
          ∧ ¬ CanPlay (underEmpty (playingStep 2 false 0) w) .alarm
          ∧ (CanPlay (underEmpty (playingStep 2 false 0) w) .assist ↔ w = waiting))
      ∧ ((playingStep 2 false 0).offset + 1 < (playingStep 2 false 0).pattern.steps
        ∧ (playingStep 1 false 0).pattern.steps ≤ (playingStep 1 false 0).offset + 1
        ∧ 1 < { playingStep 1 false 0 with passesLeft := 2 }.passesLeft
        ∧ (playingStep 1 false 0).pattern.repeats ≠ 0 ∧ (playingStep 1 false 0).passesLeft ≤ 1
        ∧ { (playingStep 1 false 0).pattern with repeats := 0 }.repeats = 0
        ∧ (playingStep 1 false 0).releaseMark = false
        ∧ { playingStep 1 false 0 with releaseMark := true }.releaseMark = true) :=
  ⟨⟨channels_ok_pair rfl (by decide +kernel) (.inl rfl), by decide +kernel, by decide +kernel⟩,
    ⟨channels_ok_pair rfl (by decide +kernel) (.inl rfl), by decide +kernel⟩,
    ⟨channels_ok_pair rfl (by decide +kernel) (.inr rfl), rfl, by decide +kernel⟩,
    ⟨channels_ok_pair rfl (by decide +kernel) (.inr rfl), rfl, by decide +kernel⟩,
    fun w hw => ⟨channels_ok_underEmpty rfl (by decide +kernel)
        (by rcases hw with rfl | rfl <;> simp [SoundSource.idle, waiting]),
      by rcases hw with rfl | rfl <;> rfl, ⟨rfl, rfl⟩, fun h => h.2 rfl, by
        rcases hw with rfl | rfl
        · exact ⟨fun h => Bool.noConfusion h.1, fun h => by cases h⟩
        · exact ⟨fun _ => rfl, fun _ => ⟨rfl, by decide +kernel⟩⟩⟩,
    by decide +kernel⟩

/-! ### Witnesses: tables and management -/

/-- A transfer of a parameter image, and of marker entry 127. -/
def moved (t : TableId) (index : Nat) : Transfer := { table := t, index := index, tag := 5 }

/-- The staging buffer in a state. -/
def staged (x : Staging) (p : Part) : Part := { p with tables := { p.tables with staging := x } }

/-- A table's lock. -/
def unlocked (t : TableId) (p : Part) : Part := withLock t .unlocked p

theorem witness_TransferCompletes :
    outstanding State.reset.part.tables = none
      ∧ (outstanding (staged (.pending (moved .marker 127) (moved .param 0)) underWay).tables
          = some (moved .marker 127) ∧ underWay.mgmt.queue.length < 4)
      ∧ writeGate .marker 127 underWay = some .locked
      ∧ writeGate .slot 79 (unlocked .slot State.reset.part) = none
      ∧ writeGate .param 0 (unlocked .param State.reset.part) = none
      ∧ writeGate .envelope 15 (unlocked .envelope State.reset.part) = none
      ∧ State.reset.part.cab.state ≠ .activating := by
  decide +kernel

/-- SYNCHRONISED, with the lock sequence in a state. -/
def listening (armed : Bool) (p : Part) : Part :=
  let q := synced (some 5) 7 p
  { q with tables := { q.tables with armed := armed } }

theorem takes_listening (p : Part) : Takes 1 (listening false p) := ⟨rfl, by decide +kernel, rfl⟩

theorem witness_StagingTakesWordsAndTransfers :
    Takes 1 (listening false State.reset.part)
      ∧ (1 ≤ (5 : Byte).toNat ∧ (5 : Byte).toNat ≤ 5 ∧ (19 : Byte).toNat + (5 : Byte).toNat ≤ 24)
      ∧ tableOf 2 = some .envelope ∧ tableOf 6 = none ∧ tableOf 5 = some .route
      ∧ transferGate .route 64 State.reset.part = some .range
      ∧ transferGate .route 63 (unlocked .route State.reset.part) = none :=
  ⟨takes_listening _, by decide +kernel, by decide +kernel, by decide +kernel, by decide +kernel, by decide +kernel, by decide +kernel⟩

theorem witness_ReadingCommandsAnswer :
    Takes 1 (listening false State.reset.part) ∧ (81 : Fin 82).val = (81 : Word).toNat
      ∧ recordPage 2 SlotRecord.cleared = some [0, 0, 0, 255] ∧ 2 < (3 : Word).toNat ∧ 81 < (82 : Word).toNat :=
  ⟨takes_listening _, by decide +kernel, by decide +kernel, by decide +kernel, by decide +kernel⟩

/-- Fields s, T and B of breakpoint 15. -/
theorem witness_EnvelopeIsLoadedByTriples :
    Takes 1 (listening false State.reset.part) ∧ 16 ≤ (16 : Word).toNat
      ∧ (15 : Fin 16).val = (15 : Word).toNat
      ∧ writeGate .envelope 0 State.reset.part = some .locked
      ∧ writeGate .envelope 0 (unlocked .envelope State.reset.part) = none
      ∧ (∃ v ∈ padTo 1 [(1001 : Word)], 1000 < v.toNat) ∧ (1000 : Word).toNat ≤ 1000
      ∧ (∀ v ∈ padTo 5 [(1000 : Word)], v.toNat ≤ 1000)
      ∧ (movePointer 15 .b [1, 2] State.reset.part).tables.field = .b
      ∧ (movePointer 15 .t [1] State.reset.part).tables.field = .t
      ∧ State.reset.part.tables.field = .s :=
  ⟨takes_listening _, by decide, by decide, by decide +kernel, by decide +kernel, ⟨1001, by decide, by decide⟩,
    by decide, by simp [padTo], rfl, rfl, rfl⟩

theorem witness_LocksFollowTheirTable :
    Takes 1 (listening false State.reset.part) ∧ TakesLock 1 (listening true State.reset.part)
      ∧ tableOf 6 = none ∧ tableOf 0 = some .slot ∧ tableOf 5 = some .route :=
  ⟨takes_listening _, ⟨rfl, by decide +kernel, rfl⟩, by decide +kernel, by decide +kernel, by decide +kernel⟩

/-- A command; a beacon; and a cell in a slot of function GENERIC. -/
theorem witness_RestrictionStandsUntilItIsChanged :
    Takes 1 (listening false State.reset.part) ∧ (∀ lines, Instr.wake 1 ≠ .powerOnReset lines)
      ∧ (beaconCycle (makeCell 0 8 .beacon 1 [])).isSome = true
      ∧ ((openAtEntry 17 underWay).slots.governing = some generic ∧ generic.entry.fn ≠ .mgmtIn) :=
  ⟨takes_listening _, (fun _ h => by cases h), by decide +kernel, by decide +kernel⟩

theorem witness_StableAndWakeMoveTheCab : Takes 1 (listening false State.reset.part) := takes_listening _

theorem witness_RestartKeepsLineAndTables :
    Takes 1 (listening false underWay) ∧ (listening false underWay).cab.state = .active
      ∧ (listening false State.reset.part).cab.state = .inactive :=
  ⟨takes_listening _, by decide +kernel, by decide +kernel⟩

/-- Codes 0 and 17; and a stored management cell of two words for node 62, one of one word, one for node 1. -/
theorem witness_FlagsAreClearedAndUnknownCodesAnswered :
    Takes 255 (listening false State.reset.part) ∧ 16 < (17 : Byte).toNat
      ∧ ((fresh 0xF801).payload.length = 8 ∧ 2 ≤ { fresh 0xF801 with length := 2 }.length
        ∧ (wordAt (fresh 0xF801).payload 0).extractLsb' 10 6 = State.reset.part.node
        ∧ { fresh 0xF801 with length := 1 }.length < 2
        ∧ (wordAt (fresh 0x0401).payload 0).extractLsb' 10 6 ≠ State.reset.part.node) :=
  ⟨⟨rfl, by decide +kernel, rfl⟩, by decide, by decide +kernel⟩

theorem witness_CommandsOutOfSequenceAreRefused :
    managementHeader (.lock 1 0) = some (1, 9) ∧ needsSetup (.lock 1 0) ≠ false
      ∧ managementHeader (.wake 255) = some (255, 15) ∧ needsSetup (.wake 255) ≠ true
      ∧ (listening true State.reset.part).line.state = .synchronised
      ∧ State.reset.part.line.state ≠ .synchronised := by decide +kernel

theorem witness_LockedTableIsNotChanged :
    (tableAt underWay.tables .route).lock ≠ .unlocked ∧ exec .hornStuck (onReset id) = .next (onReset id) :=
  ⟨by decide +kernel, rfl⟩

/-! ### Witnesses: a state under way meets every invariant, and steps from it -/

theorem witness_underWay_steps : ∃ t, step { part := underWay, pending := [.hornStuck] } = .next t :=
  ⟨_, rfl⟩

theorem witness_StepKeepsTheLineAndTheStores : LineOk underWay ∧ StoresOk underWay := by
  refine ⟨⟨⟨?_, ?_, ?_, ?_⟩, ⟨?_, ?_, ?_, ?_⟩, ?_, ?_, ?_⟩, ?_, ?_, ?_⟩ <;> decide +kernel

theorem witness_StepKeepsTheCabRow : CabOk underWay :=
  ⟨by decide +kernel, by decide +kernel, .inl rfl, by decide +kernel⟩

theorem witness_StepKeepsTheTablesAndTheDemand : TablesOk underWay ∧ DemandOk underWay := by
  refine ⟨tablesOk_underWay, ?_, ?_, ?_, ?_⟩ <;> decide +kernel

theorem witness_StepKeepsTheJunctionRowsAndTheLamp : JunctionOk underWay ∧ LampOk underWay :=
  ⟨junctionOk_underWay, by decide +kernel, by decide +kernel, by decide +kernel, by decide +kernel, by decide +kernel⟩

theorem witness_StepKeepsTheSoundChannels : SoundOk underWay := by
  refine ⟨⟨fun x y => ?_, fun x => ?_, fun x => ?_⟩, by decide +kernel, fun h => absurd h (by decide +kernel)⟩
  · cases x <;> cases y <;> decide +kernel
  all_goals cases x <;> decide +kernel

end Sys2Proof.Tests
end

section
/-! ## What the blocks leave of the records, of the queues and of the staging state

`UnitFrame` says nothing of the records, of the response queue and of the release queue. `StoreFrame` does: it
holds of every operation of the blocks that a cycle start or a store presents, but for a committed change to
the SLOT table, a response, and the ageing of the records. -/

namespace Sys2Proof.Machine

-- These short proofs wait on one another; elaborated one at a time they need one thread.
set_option Elab.async false

/-- From `p` to `q` the slot engine, the response queue, the staging state and the flag CYCLE_SLIP stand, and
the release queue does not outgrow its four places. -/
structure StoreFrame (p q : Part) : Prop where
  slots : q.slots = p.slots
  responses : q.mgmt.queue = p.mgmt.queue
  staging : q.tables.staging = p.tables.staging
  slip : hasFlag q.mgmt.flags .cycleSlip = hasFlag p.mgmt.flags .cycleSlip
  releases : p.junction.queue.length ≤ 4 → q.junction.queue.length ≤ 4

namespace StoreFrame

theorem refl (p : Part) : StoreFrame p p := ⟨rfl, rfl, rfl, rfl, id⟩

theorem trans {p q r : Part} (a : StoreFrame p q) (b : StoreFrame q r) : StoreFrame p r where
  slots := b.slots.trans a.slots
  responses := b.responses.trans a.responses
  staging := b.staging.trans a.staging
  slip := b.slip.trans a.slip
  releases h := b.releases (a.releases h)

/-- An update that touches none of the fields. -/
theorem update {p q : Part} (slots : q.slots = p.slots := by rfl)
    (mgmt : q.mgmt = p.mgmt := by rfl) (staging : q.tables.staging = p.tables.staging := by rfl)
    (queue : q.junction.queue = p.junction.queue := by rfl) : StoreFrame p q :=
  ⟨slots, by rw [mgmt], staging, by rw [mgmt], fun h => by rwa [queue]⟩

/-- A frame through either branch of a test. -/
theorem ite {p a b : Part} {c : Prop} [Decidable c] (ha : StoreFrame p a) (hb : StoreFrame p b) :
    StoreFrame p (if c then a else b) := by
  split
  · exact ha
  · exact hb

theorem foldl {α : Type} {f : Part → α → Part} (h : ∀ p x, StoreFrame p (f p x)) (xs : List α) (p : Part) :
    StoreFrame p (xs.foldl f p) := by
  induction xs generalizing p with
  | nil => exact .refl p
  | cons x xs ih => exact (h p x).trans (ih _)

end StoreFrame

theorem setFlag_storeFrame (f : Flag) (p : Part) (h : f ≠ .cycleSlip := by decide) :
    StoreFrame p (setFlag f p) :=
  ⟨rfl, rfl, rfl, by simp [h], id⟩

theorem setFlagIf_storeFrame (c : Bool) (f : Flag) (p : Part) (h : f ≠ .cycleSlip := by decide) :
    StoreFrame p (setFlagIf c f p) := by
  cases c
  · exact .refl p
  · exact setFlag_storeFrame f p h

/-! ### Sound and stop units -/

theorem request_storeFrame (x : Source) (p : Part) : StoreFrame p (request x p) := .update

theorem cutHorn_storeFrame (p : Part) : StoreFrame p (cutHorn p) :=
  .trans .update (setFlag_storeFrame _ _)

theorem countHorn_storeFrame (wasOn : Bool) (p : Part) : StoreFrame p (countHorn wasOn p) :=
  .ite (.ite (.trans .update (cutHorn_storeFrame _)) (.ite .update .update)) (.refl p)

theorem soundCycle_storeFrame (p : Part) : StoreFrame p (soundCycle p) :=
  .trans .update (countHorn_storeFrame _ _)

theorem testDoors_storeFrame (p : Part) : StoreFrame p (testDoors p) := .ite .update .update

theorem changeToRunning_storeFrame (p : Part) : StoreFrame p (changeToRunning p) := .ite .update .update

theorem tripPhase_storeFrame (p : Part) : StoreFrame p (tripPhase p) := by
  unfold tripPhase
  split
  · exact .ite .update (.refl p)
  · exact .ite (changeToRunning_storeFrame p) (.refl p)

theorem doorStore_storeFrame (source : Fin 82) (r : SlotRecord) (p : Part) :
    StoreFrame p (doorStore source r p) := by
  have h : ∀ q, StoreFrame q (advanceAssistances (clearDoorOpen (tripPhase q))) := fun q =>
    (tripPhase_storeFrame q).trans .update
  exact .trans (.ite (.trans .update (h _)) .update) (testDoors_storeFrame _)

theorem stopPush_storeFrame (z : Fin 8) (p : Part) : StoreFrame p (stopPush z p) :=
  .ite (.ite .update .update) (.ite .update (.refl p))

theorem assistancePush_storeFrame (z : Fin 8) (p : Part) : StoreFrame p (assistancePush z p) :=
  (stopPush_storeFrame z p).trans .update

theorem buttonStore_storeFrame (r : SlotRecord) (p : Part) : StoreFrame p (buttonStore r p) := by
  unfold buttonStore
  exact .ite (.ite (.trans .update (assistancePush_storeFrame _ _))
    (.ite (.trans .update (stopPush_storeFrame _ _)) .update)) .update

/-! ### Junction unit -/

theorem enterFault_storeFrame (pos : Fin 4) (r : JunctionRecord) (x : JunctionFault) (p : Part) :
    StoreFrame p (enterFault pos r x p) := .update

theorem withList_storeFrame (x : Vector (Option JunctionRecord) 4) (p : Part) :
    StoreFrame p (withList x p) := .update

theorem withdrawRow_storeFrame (r : Row) (p : Part) : StoreFrame p (withdrawRow r p) := .update

/-- A full release queue loses its oldest (R124). -/
theorem appendRelease_storeFrame (x : Release) (p : Part) : StoreFrame p (appendRelease x p) := by
  unfold appendRelease
  split
  · next h => exact ⟨rfl, rfl, rfl, rfl, fun _ => by simp; omega⟩
  · have drop : StoreFrame p { p with junction := { p.junction with
        queue := p.junction.queue.drop 1 ++ [x] } } := ⟨rfl, rfl, rfl, rfl, fun _ => by simp; omega⟩
    exact drop.trans (setFlag_storeFrame .releaseLost _)

theorem closeRecord_storeFrame (pos : Fin 4) (r : JunctionRecord) (p : Part) :
    StoreFrame p (closeRecord pos r p) := by
  unfold closeRecord
  have h := withdrawRow_storeFrame (.junction pos) p
  exact .trans (.ite (h.trans (appendRelease_storeFrame _ _)) h) (withList_storeFrame _ _)

theorem openRecord_storeFrame (pos : Fin 4) (j : Six) (e : RouteEntry) (p : Part) :
    StoreFrame p (openRecord pos j e p) := .ite .update (enterFault_storeFrame _ _ _ p)

theorem requestMarker_storeFrame (j : Six) (e : RouteEntry) (p : Part) :
    StoreFrame p (requestMarker j e p) := by
  unfold requestMarker
  split
  · exact .refl p
  · split
    · exact .update
    · exact openRecord_storeFrame _ _ _ p

theorem commitMarker_storeFrame (j : Six) (p : Part) : StoreFrame p (commitMarker j p) := by
  unfold commitMarker
  split
  · exact setFlag_storeFrame _ p
  · split
    · exact .refl p
    · split
      · exact .update
      · exact .refl p
      · exact .refl p
      · exact enterFault_storeFrame _ _ _ p
      · exact enterFault_storeFrame _ _ _ p

theorem clearMarker_storeFrame (j : Six) (p : Part) : StoreFrame p (clearMarker j p) := by
  unfold clearMarker
  split
  · exact .refl p
  · split
    · exact .refl p
    · exact closeRecord_storeFrame _ _ p

theorem newMarker_storeFrame (id : Nat) (p : Part) : StoreFrame p (newMarker id p) := by
  unfold newMarker
  split
  · exact setFlag_storeFrame _ p
  · refine .ite ?_ (setFlag_storeFrame _ p)
    split
    · exact requestMarker_storeFrame _ _ p
    · exact commitMarker_storeFrame _ p
    · exact clearMarker_storeFrame _ p

theorem markersMissed_storeFrame (p : Part) : StoreFrame p (markersMissed p) :=
  (setFlag_storeFrame _ p).trans (request_storeFrame _ _)

theorem markerStore_storeFrame (r : SlotRecord) (p : Part) : StoreFrame p (markerStore r p) := by
  unfold markerStore
  dsimp only
  split
  · exact .update
  · exact .ite .update (.ite (.trans .update (newMarker_storeFrame _ _))
      (.trans (.trans .update (markersMissed_storeFrame _)) (newMarker_storeFrame _ _)))

theorem selectFor_storeFrame (p : Part) (pos : Fin 4) : StoreFrame p (selectFor p pos) := by
  unfold selectFor
  split
  · exact .refl p
  · refine .ite (.refl p) ?_
    split
    · exact setFlag_storeFrame _ p
    · exact setFlag_storeFrame _ p
    · exact .ite .update (.refl p)
    · exact .ite .update (.refl p)
    · exact .ite .update (.refl p)

theorem select_storeFrame (x : BitVec 4) (p : Part) : StoreFrame p (select x p) :=
  .ite .update (.trans .update (.foldl selectFor_storeFrame _ _))

theorem routeSelectStore_storeFrame (i : Fin 82) (r : SlotRecord) (p : Part) :
    StoreFrame p (routeSelectStore i r p) := .trans .update (select_storeFrame _ _)

theorem reportAt_storeFrame (x : PointReport) (p : Part) (pos : Fin 4) :
    StoreFrame p (reportAt x p pos) := by
  unfold reportAt
  split
  · exact .refl p
  · dsimp only
    split
    · exact .refl p
    · refine .ite ?_ (.refl p)
      split
      · exact .ite .update .update
      · exact .ite (enterFault_storeFrame _ _ _ p) (.refl p)
      · exact .ite ((setFlag_storeFrame _ p).trans (request_storeFrame _ _)) (.refl p)
      · exact .refl p

theorem pointStore_storeFrame (r : SlotRecord) (p : Part) : StoreFrame p (pointStore r p) :=
  .ite (.foldl (reportAt_storeFrame _) _ p) (.refl p)

theorem timeOut_storeFrame (pos : Fin 4) (p : Part) : StoreFrame p (timeOut pos p) := by
  unfold timeOut
  split
  · exact enterFault_storeFrame _ _ _ p
  · exact .refl p

theorem countRequest_storeFrame (p : Part) (pos : Fin 4) : StoreFrame p (countRequest p pos) := by
  unfold countRequest
  split
  · exact .ite (.ite (.trans .update (timeOut_storeFrame _ _)) .update) (.refl p)
  · exact .refl p

theorem addDistance_storeFrame (delta : Nat) (p : Part) (pos : Fin 4) :
    StoreFrame p (addDistance delta p pos) := by
  unfold addDistance
  split
  · exact .ite (.ite (.trans .update (closeRecord_storeFrame _ _ _)) .update) (.refl p)
  · exact .refl p

theorem takeDistance_storeFrame (delta : Nat) (p : Part) : StoreFrame p (takeDistance delta p) :=
  .ite (.refl p) (.foldl (addDistance_storeFrame delta) _ p)

theorem junctionCycle_storeFrame (p : Part) : StoreFrame p (junctionCycle p) := by
  refine .trans (q := testSelection (sampleJunctionAck p)) ?_ (.foldl countRequest_storeFrame _ _)
  have ack : ∀ q, StoreFrame q (junctionAck q) := fun q => .ite .update (.refl q)
  exact .trans (.ite (.trans .update (ack _)) .update) (.ite (select_storeFrame 0 _) (.refl _))

/-- The arbiter takes the oldest RELEASE or marks a SET sent (R125). -/
theorem nextItem_storeFrame (p : Part) : StoreFrame p (nextItem p).1 := by
  unfold nextItem giveSet
  split
  · next h => exact ⟨rfl, rfl, rfl, rfl, fun hl => by simp [h] at hl; simp; omega⟩
  · split
    · split
      · exact .refl p
      · exact .update
    · exact .refl p

theorem discard_storeFrame (p : Part) (pos : Fin 4) : StoreFrame p (discard p pos) := by
  unfold discard
  split
  · exact .refl p
  · exact ((StoreFrame.ite (appendRelease_storeFrame _ p) (.refl p)).trans
      (withdrawRow_storeFrame _ _)).trans (withList_storeFrame _ _)

/-- A teardown empties the release queue (R129). -/
theorem junctionTeardown_storeFrame (p : Part) : StoreFrame p (junctionTeardown p) := by
  have h : StoreFrame p (withdrawRow .overflow (positions.foldl discard p)) :=
    (StoreFrame.foldl discard_storeFrame _ p).trans (withdrawRow_storeFrame _ _)
  unfold junctionTeardown
  generalize withdrawRow .overflow (positions.foldl discard p) = q at h
  refine .trans (.trans (h.trans (r := { q with sound := { q.sound with
    overflow := if p.caps.overflow.isSome then false else q.sound.overflow } }) .update)
    (setFlagIf_storeFrame _ .releaseDropped _)) ⟨rfl, rfl, rfl, rfl, fun _ => by simp⟩

/-! ### Traction unit -/

theorem speedStore_storeFrame (r : SlotRecord) (p : Part) : StoreFrame p (speedStore r p) :=
  ((setFlagIf_storeFrame _ .speedRange p).trans (setFlagIf_storeFrame _ .distJump _)).trans
    (.trans .update (takeDistance_storeFrame _ _))

theorem speedGoesStale_storeFrame (p : Part) : StoreFrame p (speedGoesStale p) :=
  .trans .update (.ite .update (.refl _))

theorem updateLock_storeFrame (p : Part) : StoreFrame p (updateLock p) :=
  .ite (.ite (.refl p) (speedGoesStale_storeFrame p)) (.ite (.ite .update .update) .update)

theorem speedInput_storeFrame (p : Part) : StoreFrame p (speedInput p) :=
  .ite (.refl p) (.trans (.ite .update (.refl p)) (updateLock_storeFrame _))

theorem judgeInputs_storeFrame (p : Part) : StoreFrame p (judgeInputs p) :=
  ((setFlagIf_storeFrame _ .emergStale p).trans (setFlagIf_storeFrame _ .handleStale _)).trans .update

theorem judgeEnvelope_storeFrame (p : Part) : StoreFrame p (judgeEnvelope p) :=
  .ite ((setFlagIf_storeFrame _ .envelopeInvalid p).trans .update) (.refl p)

theorem beginEpisode_storeFrame (p : Part) : StoreFrame p (beginEpisode p) :=
  (setFlag_storeFrame .overspeed p).trans .update

theorem judgeEpisode_storeFrame (p : Part) : StoreFrame p (judgeEpisode p) :=
  .ite (.ite .update (.ite (beginEpisode_storeFrame p) (.refl p))) (.refl p)

theorem evaluate_storeFrame (p : Part) : StoreFrame p (evaluate p) :=
  (((judgeInputs_storeFrame p).trans (judgeEnvelope_storeFrame _)).trans (judgeEpisode_storeFrame _)).trans
    .update

theorem tractionActivates_storeFrame (p : Part) : StoreFrame p (tractionActivates p) :=
  .trans (.ite (.refl p) .update) (evaluate_storeFrame _)

theorem tractionResumes_storeFrame (p : Part) : StoreFrame p (tractionResumes p) := by
  unfold tractionResumes
  split
  · exact .refl p
  · exact .update

theorem tractionInputs_storeFrame (cs : CycleStart) (p : Part) : StoreFrame p (tractionInputs cs p) :=
  .ite .update (.trans .update (speedInput_storeFrame _))

/-! ### Cab authority -/

theorem activationFails_storeFrame (x : FaultCause) (st : Stage) (t : Option TableId) (p : Part) :
    StoreFrame p (activationFails x st t p) := .trans (setFlag_storeFrame .actFault p) .update

theorem activationYields_storeFrame (p : Part) : StoreFrame p (activationYields p) :=
  .trans (setFlag_storeFrame .cabConflict p) .update

theorem beginActivation_storeFrame (n : Nat) (p : Part) : StoreFrame p (beginActivation n p) :=
  .trans .update (tractionActivates_storeFrame _)

theorem attempt_storeFrame (p : Part) : StoreFrame p (attempt p) :=
  .ite (beginActivation_storeFrame _ p) (.trans .update (setFlag_storeFrame _ _))

theorem attemptIfDue_storeFrame (p : Part) : StoreFrame p (attemptIfDue p) :=
  .ite (attempt_storeFrame p) (.refl p)

theorem leaveStabled_storeFrame (p : Part) : StoreFrame p (leaveStabled p) :=
  .ite (.ite (beginActivation_storeFrame _ p) (.trans .update (setFlag_storeFrame _ _))) .update

theorem leaveStabledIfDue_storeFrame (p : Part) : StoreFrame p (leaveStabledIfDue p) :=
  .ite (leaveStabled_storeFrame p) (.refl p)

theorem soundOff_storeFrame (p : Part) : StoreFrame p (soundOff p) := .update

theorem stopTeardown_storeFrame (p : Part) : StoreFrame p (stopTeardown p) := .update

theorem tractionTeardown_storeFrame (p : Part) : StoreFrame p (tractionTeardown p) := .update

theorem teardown_storeFrame (p : Part) : StoreFrame p (teardown p) :=
  .trans .update ((((junctionTeardown_storeFrame _).trans (stopTeardown_storeFrame _)).trans
    (soundOff_storeFrame _)).trans (tractionTeardown_storeFrame _))

theorem takeExit_storeFrame (p : Part) : StoreFrame p (takeExit p) := by
  unfold takeExit
  split
  · exact .update
  · exact teardown_storeFrame p
  · exact .refl p
  · exact .refl p
  · exact .refl p

theorem keyLeavesDrive_storeFrame (x : PendingExit) (p : Part) : StoreFrame p (keyLeavesDrive x p) :=
  .ite (.ite (.trans .update (takeExit_storeFrame _)) (.trans .update (setFlag_storeFrame _ _)))
    .update

theorem keyRecognised_storeFrame (k : Key) (p : Part) : StoreFrame p (keyRecognised k p) := by
  unfold keyRecognised
  split
  · exact .trans .update (attemptIfDue_storeFrame _)
  · exact .ite (.refl p) .update
  · exact .ite (.ite (.refl p) .update) (keyLeavesDrive_storeFrame _ p)
  · split
    · exact .trans .update (tractionResumes_storeFrame _)
    · exact teardown_storeFrame p
    · exact .refl p
  · exact .ite (.trans .update (leaveStabledIfDue_storeFrame _)) (.ite .update (.refl p))

theorem deskCycle_storeFrame (p : Part) : StoreFrame p (deskCycle p) :=
  .ite (.trans .update (keyRecognised_storeFrame _ _)) .update

theorem conflictInActive_storeFrame (v : CabState) (p : Part) : StoreFrame p (conflictInActive v p) :=
  .ite (.refl p) ((setFlag_storeFrame _ p).trans (request_storeFrame _ _))

theorem viewChanged_storeFrame (v : CabState) (p : Part) : StoreFrame p (viewChanged v p) := by
  unfold viewChanged
  split
  · split
    · exact activationYields_storeFrame p
    · exact activationYields_storeFrame p
    · exact .ite (activationYields_storeFrame p) (.refl p)
    · exact .refl p
    · exact .refl p
  · exact conflictInActive_storeFrame v p
  · exact .ite (.refl p) (setFlag_storeFrame _ p)
  · exact .refl p
  · exact .refl p

theorem takeView_storeFrame (v : CabState) (p : Part) : StoreFrame p (takeView v p) :=
  .ite (.refl p) (.trans .update (viewChanged_storeFrame _ _))

theorem enterActive_storeFrame (p : Part) : StoreFrame p (enterActive p) := by
  unfold enterActive
  refine .trans ?_ (conflictInActive_storeFrame _ _)
  dsimp only
  refine .trans ?_ (q := if departureWarning p = true then _ else _) .update
  exact .ite .update .update

theorem checkTable_storeFrame (t : TableId) (p : Part) : StoreFrame p (checkTable t p) := by
  unfold checkTable
  refine .ite (activationFails_storeFrame _ _ _ p) (.ite (activationFails_storeFrame _ _ _ p) ?_)
  split
  · exact .update
  · exact .update

theorem stageCycle_storeFrame (p : Part) : StoreFrame p (stageCycle p) := by
  unfold stageCycle
  split
  · exact .refl p
  · exact .ite .update .update
  · split
    · exact checkTable_storeFrame _ p
    · exact .refl p
  · exact .ite (.trans .update (activationFails_storeFrame _ _ _ _)) .update
  · exact .ite (.ite (.trans .update (enterActive_storeFrame _)) .update) .update

theorem tableChanged_storeFrame (t : TableId) (p : Part) : StoreFrame p (tableChanged t p) :=
  .ite (activationFails_storeFrame _ _ _ p) (.refl p)

theorem presentLoss_storeFrame (x : Option LossChange) (p : Part) : StoreFrame p (presentLoss x p) := by
  unfold presentLoss
  split
  · exact .refl p
  · exact .ite (activationFails_storeFrame _ _ _ p) (.refl p)
  · exact (attemptIfDue_storeFrame p).trans (leaveStabledIfDue_storeFrame _)

theorem putTable_staging (ts : TableStore) (t : TableId) (x : Table) :
    (putTable ts t x).staging = ts.staging := by
  cases t <;> rfl

theorem scrubTable_storeFrame (t : TableId) (p : Part) : StoreFrame p (scrubTable t p) := by
  refine .trans (setFlagIf_storeFrame (!sumMatches (tableAt p.tables t)) .tableFault p)
    (.update (staging := ?_))
  show (if _ then putTable _ _ _ else _).staging = _
  split
  · exact putTable_staging _ _ _
  · rfl

theorem scrubCycle_storeFrame (p : Part) : StoreFrame p (scrubCycle p) := by
  unfold scrubCycle
  refine .ite ?_ (.refl p)
  dsimp only
  split
  · exact .trans .update ((scrubTable_storeFrame _ _).trans (leaveStabledIfDue_storeFrame _))
  · exact .ite (.trans .update (scrubTable_storeFrame _ _)) .update

/-! ### A cycle start and a store -/

theorem tractionCycle_storeFrame (cs : CycleStart) (p : Part) : StoreFrame p (tractionCycle cs p) :=
  have h := tractionInputs_storeFrame cs p
  .ite (h.trans ((evaluate_storeFrame _).trans (.ite (takeExit_storeFrame _) (.refl _)))) h

/-- Every work of a cycle start but that of the table store leaves the records and the queues. -/
theorem doWork_storeFrame (cs : CycleStart) {w : Work} (h : w ≠ .tableStore) (p : Part) :
    StoreFrame p (doWork cs w p) := by
  cases w with
  | lineLoss => exact presentLoss_storeFrame _ p
  | cabDesk => exact deskCycle_storeFrame p
  | cabView => exact takeView_storeFrame _ p
  | cabStage => exact .ite (stageCycle_storeFrame p) (.refl p)
  | cabScrub => exact scrubCycle_storeFrame p
  | traction => exact tractionCycle_storeFrame cs p
  | junction => exact junctionCycle_storeFrame p
  | stop => exact testDoors_storeFrame p
  | sound => exact soundCycle_storeFrame p
  | tableStore => exact absurd rfl h

/-- A store given to its block leaves the records and the queues, but for a command of function MGMT_IN. -/
theorem deliver_storeFrame (index : Fin 82) {fn : Fn} (h : fn ≠ .mgmtIn) (kind : Kind) (r : SlotRecord)
    (p : Part) : StoreFrame p (deliver index fn kind r p) := by
  cases fn with
  | handle => exact (setFlagIf_storeFrame _ _ p).trans (.ite .update (.refl _))
  | speed => exact speedStore_storeFrame r p
  | marker => exact markerStore_storeFrame r p
  | routeSelect => exact routeSelectStore_storeFrame index r p
  | pointStatus => exact pointStore_storeFrame r p
  | stopButton => exact buttonStore_storeFrame r p
  | doorStatus => exact doorStore_storeFrame index r p
  | otherCab => exact takeView_storeFrame _ p
  | mgmtIn => exact absurd rfl h
  | _ => exact .refl p

/-- A committed change to another table than SLOT leaves the records and the queues. -/
theorem commit_storeFrame {t : TableId} (h : t ≠ .slot) (i : Nat) (ws : List Word) (p : Part) :
    StoreFrame p (commit t i ws p) := by
  have put : StoreFrame p { p with tables := putTable p.tables t (committed t i ws (tableAt p.tables t)) } :=
    .update (staging := putTable_staging _ _ _)
  refine (put.trans ?_).trans (tableChanged_storeFrame t _)
  cases t with
  | slot => exact absurd rfl h
  | param => exact .trans .update (testDoors_storeFrame _)
  | envelope => exact .update
  | _ => exact .refl _

end Sys2Proof.Machine
end

section
/-! ## What the slot engine does with a cell, by the disposition that applies (R25) -/

namespace Sys2Proof.Machine

set_option Elab.async false

/-- A record written twice holds what was written last. -/
@[simp] theorem putRecord_putRecord (i : Fin 82) (r r' : SlotRecord) (p : Part) :
    putRecord i r (putRecord i r' p) = putRecord i r p := by
  simp [putRecord]

/-- The outcome of a cell that is no collision (R34). -/
def verdict (valid : Bool) : LaneOutcome := if valid then .valid else .invalid

section
variable {g : Governing} {p : Part} (lane : Lane) (words : List Word) (c : Cell) (valid : Bool)

theorem disposeCell_pass (h : appliedDisposition p.cab.state g.entry = .pass) :
    disposeCell g lane words c valid p = (setOutcome g lane (verdict valid) p, some words) := by
  simp [disposeCell, h, verdict]

theorem disposeCell_observe (h : appliedDisposition p.cab.state g.entry = .observe) :
    disposeCell g lane words c valid p =
      (if valid then observeCell g lane c (setOutcome g lane .valid p) else setOutcome g lane .invalid p,
        some words) := by
  cases valid <;> simp [disposeCell, h]

/-- TAKE, of a valid cell that is addressed to the part (R29). -/
theorem disposeCell_take_addressed (h : appliedDisposition p.cab.state g.entry = .take)
    (ha : addressed c p = true) :
    disposeCell g lane words c true p =
      (observeCell g lane c (setOutcome g lane .valid p), some (nullCell p)) := by
  simp [disposeCell, h, ha]

/-- TAKE, of a valid cell that is not addressed to the part (R29). -/
theorem disposeCell_take_other (h : appliedDisposition p.cab.state g.entry = .take)
    (ha : addressed c p = false) :
    disposeCell g lane words c true p = (setOutcome g lane .valid p, some words) := by
  simp [disposeCell, h, ha]

/-- TAKE and REWRITE put a NULL cell in the place of an invalid cell (R29, R30). -/
theorem disposeCell_replaced (h : appliedDisposition p.cab.state g.entry = .take
      ∨ appliedDisposition p.cab.state g.entry = .rewrite) :
    disposeCell g lane words c false p = (setOutcome g lane .invalid p, some (nullCell p)) := by
  rcases h with h | h <;> simp [disposeCell, h]

/-- REWRITE, of a valid cell: the copy carries the acknowledge value as the store has left it (R30). -/
theorem disposeCell_rewrite (h : appliedDisposition p.cab.state g.entry = .rewrite) :
    disposeCell g lane words c true p =
      (observeCell g lane c (setOutcome g lane .valid p),
        some (rewritten (acknowledge (observeCell g lane c (setOutcome g lane .valid p)) (zoneOf c))
          words)) := by
  simp [disposeCell, h]

/-- OWN, of any cell: a collision (R31). -/
theorem disposeCell_own (h : appliedDisposition p.cab.state g.entry = .own) :
    disposeCell g lane words c valid p =
      (putRecord g.index { withOutcome lane .collision (recordAt p g.index) with collision := true } p,
        none) := by
  simp [disposeCell, h, setOutcome]

end

end Sys2Proof.Machine
end

section
/-! ## The line interface and the stores through every command (O56)

`LineOk` and `StoresOk` are kept apart from each other: `Keeps` carries both through an operation. The blocks'
operations keep them by their two frames; what is left are the records that are written, the responses, the
management commands, and the line interface's own operations. -/

namespace Sys2Proof.Machine

set_option Elab.async false

/-- From `p` to `q` the invariant of the line interface and that of the stores, each by itself, is kept. -/
structure Keeps (p q : Part) : Prop where
  line : LineOk p → LineOk q
  stores : StoresOk p → StoresOk q

namespace Keeps

theorem refl (p : Part) : Keeps p p := ⟨id, id⟩

theorem trans {p q r : Part} (a : Keeps p q) (b : Keeps q r) : Keeps p r :=
  ⟨b.line ∘ a.line, b.stores ∘ a.stores⟩

theorem ite {p a b : Part} {c : Prop} [Decidable c] (ha : c → Keeps p a) (hb : ¬ c → Keeps p b) :
    Keeps p (if c then a else b) := by
  split
  · next h => exact ha h
  · next h => exact hb h

end Keeps

/-- `LineOk` reads the line interface and the governing entry alone. -/
theorem lineOk_of_eq {p q : Part} (hl : q.line = p.line) (hg : q.slots.governing = p.slots.governing)
    (h : LineOk p) : LineOk q := by
  unfold LineOk at h ⊢
  rwa [hl, hg]

theorem StoreFrame.storesOk {p q : Part} (f : StoreFrame p q) (h : StoresOk p) : StoresOk q := by
  obtain ⟨records, responses, releases⟩ := h
  refine ⟨fun i => ?_, by rwa [f.responses], f.releases releases⟩
  rw [recordAt, f.slots]
  exact records i

/-- An operation that leaves the line, the openings and the stores. -/
theorem Keeps.of_frame {p q : Part} (f : StoreFrame p q) (hl : q.line = p.line := by rfl) : Keeps p q :=
  ⟨lineOk_of_eq hl (by rw [f.slots]), f.storesOk⟩

/-- An update of other state. -/
theorem Keeps.update {p q : Part} (line : q.line = p.line := by rfl) (slots : q.slots = p.slots := by rfl)
    (responses : q.mgmt.queue = p.mgmt.queue := by rfl)
    (releases : q.junction.queue = p.junction.queue := by rfl) : Keeps p q := by
  refine ⟨lineOk_of_eq line (by rw [slots]), fun ⟨h1, h2, h3⟩ => ⟨fun i => ?_, by rwa [responses],
    by rwa [releases]⟩⟩
  rw [recordAt, slots]
  exact h1 i

/-! ### Records, responses and flags -/

/-- A record of eight words, of an age up to 255. -/
def RecordOk (r : SlotRecord) : Prop := r.payload.length = 8 ∧ r.age ≤ 255

theorem recordOk_cleared : RecordOk SlotRecord.cleared := ⟨rfl, Nat.le_refl _⟩

/-- A record is written that keeps its size. -/
theorem putRecord_keeps (i : Fin 82) (r : SlotRecord) (p : Part) (h : RecordOk (recordAt p i) → RecordOk r) :
    Keeps p (putRecord i r p) := by
  refine ⟨lineOk_of_eq rfl rfl, fun ⟨records, responses, releases⟩ => ⟨fun j => ?_, responses, releases⟩⟩
  by_cases e : i = j
  · subst e
    rw [recordAt_putRecord_self]
    exact h (records i)
  · rw [recordAt_putRecord_ne e]
    exact records j

theorem withOutcome_recordOk (l : Lane) (o : LaneOutcome) {r : SlotRecord} (h : RecordOk r) :
    RecordOk (withOutcome l o r) := by
  cases l <;> exact h

theorem setOutcome_keeps (g : Governing) (l : Lane) (o : LaneOutcome) (p : Part) :
    Keeps p (setOutcome g l o p) :=
  putRecord_keeps _ _ p (withOutcome_recordOk l o)

theorem markSent_keeps (g : Governing) (ws : List Word) (p : Part) : Keeps p (markSent g ws p) :=
  putRecord_keeps _ _ p id

theorem setFlag_keeps (f : Flag) (p : Part) : Keeps p (setFlag f p) := .update

/-- Four responses wait at most (R184). -/
theorem respond_keeps (tag code : Byte) (x : Result) (ws : List Word) (p : Part) :
    Keeps p (respond tag code x ws p) := by
  unfold respond
  split
  · next h =>
    exact ⟨lineOk_of_eq rfl rfl, fun ⟨records, _, releases⟩ => ⟨records, by simp; omega, releases⟩⟩
  · exact setFlag_keeps _ p

theorem drive_keeps (l : Lane) (cell : List Word) (p : Part) : Keeps p (drive l cell p) := by
  cases l <;> exact .update

/-! ### The table store -/

theorem presentChange_keeps (t : TableId) (i : Nat) (p : Part) : Keeps p (presentChange t i p) := by
  cases t with
  | slot =>
    unfold presentChange clearEntryRecord
    dsimp only
    split
    · exact putRecord_keeps _ _ p fun _ => recordOk_cleared
    · exact .refl p
  | param =>
    have h : StoreFrame p (testDoors (markEnvelope (setRow .line (lineCap p) p))) :=
      .trans .update (testDoors_storeFrame _)
    exact .of_frame h (testDoors_unitFrame _).line
  | envelope => exact .update
  | cadence => exact .refl p
  | marker => exact .refl p
  | route => exact .refl p

theorem commit_keeps (t : TableId) (i : Nat) (ws : List Word) (p : Part) : Keeps p (commit t i ws p) :=
  .trans (.trans .update (presentChange_keeps t i _))
    (.of_frame (tableChanged_storeFrame t _) (tableChanged_unitFrame t _).line)

theorem completeTransfer_keeps (p : Part) : Keeps p (completeTransfer p) := by
  have one : ∀ x q, Keeps q (completeOne x q) := fun x q => by
    unfold completeOne
    split
    · exact respond_keeps _ _ _ _ q
    · exact (commit_keeps _ _ _ q).trans (respond_keeps _ _ _ _ _)
  unfold completeTransfer
  split
  · exact .refl p
  · exact (one _ p).trans .update

/-! ### The management commands (chapter 10) -/

theorem accept_keeps (tag code : Byte) {take : Part → Part} (h : ∀ p, Keeps p (take p)) (p : Part) :
    Keeps p (accept tag code take p) := by
  unfold accept refuseSequence
  exact .ite (fun _ => .ite (fun _ => .trans .update (respond_keeps _ _ _ _ _)) (fun _ => h p))
    (fun _ => .refl p)

theorem acceptLock_keeps (tag code : Byte) {take : Part → Part} (h : ∀ p, Keeps p (take p)) (p : Part) :
    Keeps p (acceptLock tag code take p) := by
  unfold acceptLock refuseSequence
  exact .ite (fun _ => .ite (fun _ => .trans .update (h _))
    (fun _ => .trans .update (respond_keeps _ _ _ _ _))) (fun _ => .refl p)

theorem statusCommand_keeps (tag : Byte) (page : Word) (p : Part) : Keeps p (statusCommand tag page p) := by
  unfold statusCommand
  split <;> exact respond_keeps _ _ _ _ p

theorem clearStatusCommand_keeps (tag : Byte) (p : Part) : Keeps p (clearStatusCommand tag p) :=
  .trans .update (respond_keeps _ _ _ _ _)

theorem writeStage_keeps (tag : Byte) (offset count : Nat) (ws : List Word) (p : Part) :
    Keeps p (writeStage tag offset count ws p) := by
  have taken : Keeps p (if count < 1 ∨ 5 < count ∨ 24 < offset + count then respond tag 3 .range [] p
      else respond tag 3 .ok [] { p with tables := { p.tables with
        front := overwrite p.tables.front offset (padTo count ws) } }) :=
    .ite (fun _ => respond_keeps _ _ _ _ p) (fun _ => .trans .update (respond_keeps _ _ _ _ _))
  unfold writeStage
  split
  · exact respond_keeps _ _ _ _ p
  · exact taken
  · exact taken

theorem stageTransfer_keeps (x : Transfer) (p : Part) : Keeps p (stageTransfer x p) := by
  unfold stageTransfer
  split
  · exact .update
  · exact .update
  · exact respond_keeps _ _ _ _ p

theorem transfer_keeps (tag : Byte) (table index : Word) (p : Part) :
    Keeps p (transfer tag table index p) := by
  unfold transfer
  split
  · exact respond_keeps _ _ _ _ p
  · split
    · exact respond_keeps _ _ _ _ p
    · exact stageTransfer_keeps _ p

theorem readEntryCommand_keeps (tag : Byte) (table index offset : Word) (p : Part) :
    Keeps p (readEntryCommand tag table index offset p) := by
  unfold readEntryCommand
  split
  · exact respond_keeps _ _ _ _ p
  · exact .ite (fun _ => respond_keeps _ _ _ _ p) (fun _ => respond_keeps _ _ _ _ p)

theorem envelopePointer_keeps (tag : Byte) (breakpoint : Word) (p : Part) :
    Keeps p (envelopePointer tag breakpoint p) := by
  unfold envelopePointer
  split
  · exact .trans .update (respond_keeps _ _ _ _ _)
  · exact respond_keeps _ _ _ _ p

theorem takeValue_keeps (v : Word) (p : Part) : Keeps p (takeValue v p) := by
  unfold takeValue
  dsimp only
  split
  · exact .update
  · exact .update
  · exact (commit_keeps _ _ _ p).trans .update

theorem takeValues_keeps (vs : List Word) (p : Part) : Keeps p (takeValues vs p) := by
  unfold takeValues
  induction vs generalizing p with
  | nil => exact .refl p
  | cons v vs ih => exact (takeValue_keeps v p).trans (ih _)

theorem envelopeData_keeps (tag : Byte) (count : Nat) (values : List Word) (p : Part) :
    Keeps p (envelopeData tag count values p) := by
  unfold envelopeData
  split
  · exact respond_keeps _ _ _ _ p
  · exact .ite (fun _ => respond_keeps _ _ _ _ p)
      (fun _ => (takeValues_keeps _ p).trans (respond_keeps _ _ _ _ _))

theorem lockCommand_keeps {act : TableId → Part → Part × Result} (h : ∀ t p, Keeps p (act t p).1)
    (tag code : Byte) (table : Word) (p : Part) : Keeps p (lockCommand act tag code table p) := by
  unfold lockCommand
  split
  · exact respond_keeps _ _ _ _ p
  · exact (h _ p).trans (respond_keeps _ _ _ _ _)

theorem lockTable_keeps (t : TableId) (p : Part) : Keeps p (lockTable t p).1 := by
  unfold lockTable
  split
  · exact .update
  · exact .update
  · exact .refl p

theorem unlockTable_keeps (t : TableId) (p : Part) : Keeps p (unlockTable t p).1 := by
  unfold unlockTable
  split
  · exact .refl p
  · split
    · exact .refl p
    · exact .update
  · split
    · exact .refl p
    · split
      · exact .refl p
      · exact .update

theorem lockDownTable_keeps (t : TableId) (p : Part) : Keeps p (lockDownTable t p).1 := .update

theorem lockSetupCommand_keeps (tag : Byte) (p : Part) : Keeps p (lockSetupCommand tag p) :=
  .trans .update (respond_keeps _ _ _ _ _)

theorem setRestrictionCommand_keeps (tag : Byte) (action value : Word) (p : Part) :
    Keeps p (setRestrictionCommand tag action value p) :=
  .ite (fun _ => .trans .update (respond_keeps _ _ _ _ _))
    (fun _ => .ite (fun _ => .trans .update (respond_keeps _ _ _ _ _)) (fun _ => respond_keeps _ _ _ _ p))

/-- The reading of a record clears two of its marks (R188). -/
theorem readRecordCommand_keeps (tag : Byte) (index page : Word) (p : Part) :
    Keeps p (readRecordCommand tag index page p) := by
  unfold readRecordCommand
  split
  · dsimp only
    split
    · refine .trans ?_ (respond_keeps _ _ _ _ _)
      exact putRecord_keeps _ _ p id
    · exact respond_keeps _ _ _ _ p
  · exact respond_keeps _ _ _ _ p

theorem stableCommand_keeps (tag : Byte) (p : Part) : Keeps p (stableCommand tag p) :=
  .ite (fun _ => .ite (fun _ => respond_keeps _ _ _ _ p)
    (fun _ => .trans .update (respond_keeps _ _ _ _ _))) (fun _ => respond_keeps _ _ _ _ p)

theorem leaveStabledIfDue_keeps (p : Part) : Keeps p (leaveStabledIfDue p) :=
  .of_frame (leaveStabledIfDue_storeFrame p) (leaveStabledIfDue_unitFrame p).line

theorem wakeCommand_keeps (tag : Byte) (p : Part) : Keeps p (wakeCommand tag p) :=
  .ite (fun _ => .trans (.trans .update (leaveStabledIfDue_keeps _)) (respond_keeps _ _ _ _ _))
    (fun _ => respond_keeps _ _ _ _ p)

/-- RESTART clears the error counts and the stores, and keeps the opening in progress (R20, R43, R189). -/
theorem restart_keeps (p : Part) : Keeps p (restart p) := by
  refine ⟨fun ⟨⟨b, m, _, z⟩, ⟨b', m', _, z'⟩, rest⟩ =>
    ⟨⟨b, m, Nat.zero_le _, z⟩, ⟨b', m', Nat.zero_le _, z'⟩, rest⟩, fun _ => ⟨fun i => ?_, ?_, ?_⟩⟩
  · have h : recordAt (restart p) i = SlotRecord.cleared := by
      simp [recordAt, restart, restartedSlots]
    rw [h]
    exact recordOk_cleared
  · exact Nat.zero_le _
  · exact Nat.zero_le _

theorem restartCommand_keeps (tag : Byte) (lines : Lines) (p : Part) :
    Keeps p (restartCommand tag lines p) := by
  have taken : Keeps p (respond tag 16 .ok [] (restart (withLines lines p))) :=
    .trans (.trans .update (restart_keeps _)) (respond_keeps _ _ _ _ _)
  unfold restartCommand
  split
  · exact taken
  · exact taken
  · exact respond_keeps _ _ _ _ p
  · exact respond_keeps _ _ _ _ p
  · exact respond_keeps _ _ _ _ p

theorem unknownCommand_keeps (tag code : Byte) (p : Part) : Keeps p (unknownCommand tag code p) :=
  respond_keeps _ _ _ _ p

theorem acceptCommand_keeps (tag code : Byte) (ws : List Word) (p : Part) :
    Keeps p (acceptCommand tag code ws p) := by
  unfold acceptCommand
  dsimp only
  split
  · exact accept_keeps _ _ (statusCommand_keeps _ _) p
  · exact accept_keeps _ _ (clearStatusCommand_keeps _) p
  · exact accept_keeps _ _ (writeStage_keeps _ _ _ _) p
  · exact accept_keeps _ _ (transfer_keeps _ _ _) p
  · exact accept_keeps _ _ (readEntryCommand_keeps _ _ _ _) p
  · exact accept_keeps _ _ (envelopePointer_keeps _ _) p
  · exact accept_keeps _ _ (envelopeData_keeps _ _ _) p
  · exact accept_keeps _ _ (lockSetupCommand_keeps _) p
  · exact acceptLock_keeps _ _ (lockCommand_keeps lockTable_keeps _ _ _) p
  · exact acceptLock_keeps _ _ (lockCommand_keeps unlockTable_keeps _ _ _) p
  · exact acceptLock_keeps _ _ (lockCommand_keeps lockDownTable_keeps _ _ _) p
  · exact accept_keeps _ _ (setRestrictionCommand_keeps _ _ _) p
  · exact accept_keeps _ _ (readRecordCommand_keeps _ _ _) p
  · exact accept_keeps _ _ (stableCommand_keeps _) p
  · exact accept_keeps _ _ (wakeCommand_keeps _) p
  · exact accept_keeps _ _ (restartCommand_keeps _ _) p
  · exact accept_keeps _ _ (unknownCommand_keeps _ _) p

/-! ### Cells and openings (chapter 2) -/

theorem deliver_keeps (index : Fin 82) (fn : Fn) (kind : Kind) (r : SlotRecord) (p : Part) :
    Keeps p (deliver index fn kind r p) := by
  by_cases h : fn = .mgmtIn
  · subst h
    exact .ite (fun _ => acceptCommand_keeps _ _ _ p) (fun _ => .refl p)
  · exact .of_frame (deliver_storeFrame index h kind r p) (deliver_unitFrame index h kind r p).line

theorem storedRecord_recordOk (len : Nat) (lane : Lane) (cycle : Six) (stamp : Nat) (c : Cell)
    (r : SlotRecord) : RecordOk (storedRecord len lane cycle stamp c r) :=
  ⟨padTo_length 8 _, Nat.zero_le _⟩

theorem storeCell_keeps (g : Governing) (lane : Lane) (c : Cell) (p : Part) :
    Keeps p (storeCell g lane c p) := by
  have stored := putRecord_keeps g.index
    (storedRecord g.entry.len lane p.line.counter (p.slots.stores + 1) c (recordAt p g.index)) p
    fun _ => storedRecord_recordOk _ _ _ _ _ _
  refine .trans (stored.trans ?_) (deliver_keeps _ _ _ _ _)
  exact ⟨lineOk_of_eq rfl rfl, id⟩

theorem disagree_keeps (g : Governing) (p : Part) : Keeps p (disagree g p) := by
  refine .trans ?_ (setFlag_keeps .laneDisagree _)
  exact putRecord_keeps _ _ p id

theorem observeCell_keeps (g : Governing) (lane : Lane) (c : Cell) (p : Part) :
    Keeps p (observeCell g lane c p) := by
  have mark : ∀ x, Keeps p { p with slots := { p.slots with mark := some x } } := fun x =>
    ⟨lineOk_of_eq rfl rfl, id⟩
  unfold observeCell pairCell
  split
  · exact .refl p
  · dsimp only
    split
    · exact .ite (fun _ => mark _) (fun _ => (mark _).trans (storeCell_keeps g lane c _))
    · exact .ite (fun _ => .refl p)
        (fun _ => disagree_keeps g p)
  · exact .ite (fun _ => storeCell_keeps g lane c p) (fun _ => .refl p)
  · exact .ite (fun _ => storeCell_keeps g lane c p) (fun _ => .refl p)

theorem disposeCell_keeps (g : Governing) (lane : Lane) (words : List Word) (c : Cell) (valid : Bool)
    (p : Part) : Keeps p (disposeCell g lane words c valid p).1 := by
  have o := fun x => setOutcome_keeps g lane x p
  have stored := (o .valid).trans (observeCell_keeps g lane c _)
  cases h : appliedDisposition p.cab.state g.entry with
  | pass => simpa only [disposeCell_pass _ _ _ _ h] using o _
  | observe =>
    rw [disposeCell_observe _ _ _ _ h]
    exact .ite (fun _ => stored) (fun _ => o _)
  | take =>
    cases valid with
    | false => simpa only [disposeCell_replaced _ _ _ (.inl h)] using o _
    | true =>
      cases ha : addressed c p with
      | false => simpa only [disposeCell_take_other _ _ _ h ha] using o _
      | true => simpa only [disposeCell_take_addressed _ _ _ h ha] using stored
  | rewrite =>
    cases valid with
    | false => simpa only [disposeCell_replaced _ _ _ (.inr h)] using o _
    | true => simpa only [disposeCell_rewrite _ _ _ h] using stored
  | own =>
    rw [disposeCell_own _ _ _ _ h]
    exact putRecord_keeps _ _ p fun k => withOutcome_recordOk lane .collision k

theorem handOver_keeps (lane : Lane) (words : List Word) (c : Cell) (valid : Bool) (p : Part) :
    Keeps p (handOver lane words c valid p).1 := by
  unfold handOver
  split
  · exact disposeCell_keeps _ lane words c valid p
  · exact .refl p

theorem standing_keeps (g : Governing) (content : List Word) (p : Part) :
    Keeps p (standing g content p).1 := by
  unfold standing
  dsimp only
  split
  · exact .refl p
  · exact markSent_keeps g _ p

theorem itemSent_keeps (g : Governing) {p : Part} {x : Part × Option (List Word)} (h : Keeps p x.1) :
    Keeps p (itemSent g x).1 := by
  unfold itemSent
  split
  · exact h.trans (markSent_keeps g _ _)
  · exact h

theorem takeResponse_keeps (p : Part) : Keeps p (takeResponse p).1 := by
  unfold takeResponse
  split
  · next h =>
    refine ⟨lineOk_of_eq rfl rfl, fun ⟨records, responses, releases⟩ => ⟨records, ?_, releases⟩⟩
    rw [h, List.length_cons] at responses
    exact Nat.le_of_succ_le responses
  · exact .refl p

theorem emission_keeps (g : Governing) (p : Part) : Keeps p (emission g p).1 := by
  unfold emission
  split
  · exact .refl p
  · split
    · exact standing_keeps g _ p
    · exact standing_keeps g _ p
    · exact standing_keeps g _ p
    · exact standing_keeps g _ p
    · exact standing_keeps g _ p
    · exact itemSent_keeps g (.of_frame (nextItem_storeFrame p) (nextItem_unitFrame p).line)
    · exact itemSent_keeps g (takeResponse_keeps p)
    all_goals exact .refl p

theorem emitOwned_keeps (slot : Six) (g : Governing) (p : Part) : Keeps p (emitOwned slot g p) := by
  have up : ∀ l cell q, Keeps q (driveIfUp l cell q) := fun l cell q =>
    .ite (fun _ => drive_keeps l cell q) (fun _ => .refl q)
  unfold emitOwned
  exact .ite (fun _ => .refl p)
    (fun _ => ((emission_keeps g p).trans (up _ _ _)).trans (up _ _ _))

/-! ### The line interface (chapter 1) -/

theorem LaneOk.counted {x : LaneState} (h : LaneOk x) : LaneOk { x with errors := min 65535 (x.errors + 1) } :=
  ⟨h.1, h.2.1, Nat.min_le_left _ _, h.2.2.2⟩

/-- The runs after a cycle: the one that the credit ends is 0 and the other at its bound at most (R17). -/
theorem LaneOk.countRuns {x : LaneState} (h : LaneOk x) : LaneOk (countRuns x) := by
  obtain ⟨_, _, herr, _⟩ := h
  unfold Machine.countRuns
  split
  · exact ⟨Nat.min_le_left _ _, Nat.zero_le _, herr, .inr rfl⟩
  · exact ⟨Nat.zero_le _, Nat.min_le_left _ _, herr, .inl rfl⟩

theorem settleLane_laneOk (down up : Bool) {x : LaneState} (h : LaneOk x) :
    LaneOk (settleLane down up x) := h

/-- One lane's counts and marks change within their ranges, and nothing else of the line does. -/
theorem withLane_keeps (l : Lane) (x : LaneState) (p : Part) (h : LaneOk (laneOf p.line l) → LaneOk x) :
    Keeps p { p with line := withLane p.line l x } := by
  refine ⟨fun ⟨a, b, rest⟩ => ?_, id⟩
  cases l with
  | A => exact ⟨h a, b, rest⟩
  | B => exact ⟨a, h b, rest⟩

theorem countError_keeps (l : Lane) (p : Part) : Keeps p (countError l p) :=
  withLane_keeps l _ p LaneOk.counted

theorem creditLane_keeps (l : Lane) (p : Part) : Keeps p (creditLane l p) := withLane_keeps l _ p id

theorem markHanded_keeps (l : Lane) (p : Part) : Keeps p (markHanded l p) := withLane_keeps l _ p id

/-- The lanes are decided: neither the runs nor the openings change (R17). -/
theorem settleLanes_keeps (down up : Bool) (p : Part) : Keeps p (settleLanes down up p) :=
  ⟨id, id⟩

theorem decideLanes_keeps (down up : Bool) (p : Part) : Keeps p (decideLanes down up p) :=
  (settleLanes_keeps down up p).trans (.of_frame (presentLoss_storeFrame _ _) (presentLoss_unitFrame _ _).line)

/-- A cycle start's works keep the line and the stores (R9, R33). -/
theorem presentCycle_keeps_ok (loss : Option LossChange) (order : List Work) (p : Part) :
    Keeps p (presentCycle loss order p) := by
  have age : Keeps p (ageAll p) := by
    refine ⟨lineOk_of_eq rfl rfl, fun ⟨records, rest⟩ => ⟨fun i => ?_, rest⟩⟩
    have h : recordAt (ageAll p) i = { recordAt p i with age := min 255 ((recordAt p i).age + 1) } := by
      simp [recordAt, ageAll, ageSteps, ageRecords, mapVec]
    rw [h]
    exact ⟨(records i).1, Nat.min_le_left _ _⟩
  refine presentCycle_keeps (Keeps p) loss order p age fun cs w q hq => hq.trans ?_
  by_cases h : w = .tableStore
  · subst h
    exact .trans .update (completeTransfer_keeps _)
  · exact .of_frame (doWork_storeFrame cs h q) (doWork_unitFrame cs w q).line

end Sys2Proof.Machine
end

section
namespace Sys2Proof.Machine

set_option Elab.async false

/-! ### Openings and cycle starts (R3, R7, R10) -/

@[simp] theorem silentUnlessHanded_line (g : Governing) (l : Lane) (p : Part) :
    (silentUnlessHanded g l p).line = p.line := by
  unfold silentUnlessHanded
  split <;> rfl

/-- The close of a slot leaves the line as it is but for the slot (R10). -/
@[simp] theorem closeSlot_line (p : Part) : (closeSlot p).line = { p.line with slotOpen := none } := by
  unfold closeSlot
  dsimp only
  split <;> simp

theorem closeSlot_storesOk {p : Part} (h : StoresOk p) : StoresOk (closeSlot p) := by
  have silent : ∀ g l q, StoresOk q → StoresOk (silentUnlessHanded g l q) := fun g l q hq => by
    unfold silentUnlessHanded
    split
    · exact hq
    · exact (setOutcome_keeps g l .silent q).stores hq
  unfold closeSlot
  dsimp only
  split
  · exact silent _ _ _ (silent _ _ _ h)
  · exact h

/-- The part with a slot newly open under a governing entry, before an own cell is sent (R10, R22). -/
def newOpening (slot : Six) (g : Option Governing) (p : Part) : Part :=
  { p with
    line := { p.line with
      slotOpen := some slot
      laneA := { p.line.laneA with handed := false }
      laneB := { p.line.laneB with handed := false } }
    slots := { p.slots with mark := none, governing := g } }

/-- The entry that governs an opening; slot 0 has none (R10, R22). -/
def openingEntry (slot : Six) (p : Part) : Option Governing := if slot = 0 then none else governingAt slot p

/-- An opening sends an own cell under an OWN entry, and nothing else besides (R36). -/
theorem openSlot_eq (slot : Six) (p : Part) :
    openSlot slot p = newOpening slot (openingEntry slot p) p
      ∨ ∃ g, openSlot slot p = emitOwned slot g (newOpening slot (openingEntry slot p) p) := by
  unfold openSlot
  dsimp only
  split
  · split
    · exact .inr ⟨_, rfl⟩
    · exact .inl rfl
  · exact .inl rfl

theorem openSlot_keeps (slot : Six) (p : Part) :
    Keeps (newOpening slot (openingEntry slot p) p) (openSlot slot p) := by
  rcases openSlot_eq slot p with h | ⟨g, h⟩
  · rw [h]
    exact .refl _
  · rw [h]
    exact emitOwned_keeps slot g _

/-- A slot opens in SYNCHRONISED, with the timer armed. -/
theorem openSlot_lineOk (slot : Six) {p : Part} (hA : LaneOk p.line.laneA) (hB : LaneOk p.line.laneB)
    (hs : p.line.state = .synchronised) (ht : p.line.timerArmed = true) : LineOk (openSlot slot p) := by
  refine (openSlot_keeps slot p).line ⟨hA, hB, ?_, ?_, fun _ => rfl⟩
  · simp [newOpening, hs]
  · simp [newOpening, hs, ht]

theorem openSlot_storesOk (slot : Six) {p : Part} (h : StoresOk p) : StoresOk (openSlot slot p) :=
  (openSlot_keeps slot p).stores h

theorem slotTimer_keeps (p : Part) : Keeps p (slotTimer p) := by
  unfold slotTimer nextSlot
  split
  · next n h =>
    have hs : p.line.state = .synchronised := by
      by_contra hn
      simp [hn] at h
    refine ⟨fun ⟨hA, hB, _, timer, _⟩ => openSlot_lineOk _ ?_ ?_ ?_ ?_,
      fun h => openSlot_storesOk _ (closeSlot_storesOk h)⟩
    · simpa using hA
    · simpa using hB
    · simpa using hs
    · simpa using timer.mpr (by simp [hs])
  · exact .refl p

/-- The lanes after a cycle has ended, by their runs (R3, R7, R17). -/
theorem endCycle_line (p : Part) : (endCycle p).line = { p.line with
    slotOpen := none
    laneA := settleLane true true (countRuns p.line.laneA)
    laneB := settleLane true true (countRuns p.line.laneB) } := by
  simp [endCycle, settleLanes]

theorem endCycle_storesOk {p : Part} (h : StoresOk p) : StoresOk (endCycle p) :=
  (settleLanes_keeps true true _).stores (closeSlot_storesOk h)

theorem endCycle_laneOk {p : Part} (h : LineOk p) :
    LaneOk (endCycle p).line.laneA ∧ LaneOk (endCycle p).line.laneB := by
  obtain ⟨hA, hB, _⟩ := h
  rw [endCycle_line]
  exact ⟨settleLane_laneOk true true hA.countRuns, settleLane_laneOk true true hB.countRuns⟩

theorem beaconStart_keeps (lane : Lane) (cycle : Six) (order : List Work) (p : Part) :
    Keeps p (beaconStart lane cycle order p) := by
  refine .trans ?_ (presentCycle_keeps_ok _ _ _)
  unfold takeBeacon
  refine ⟨fun h => ?_, fun h => openSlot_storesOk 0 (endCycle_storesOk h)⟩
  obtain ⟨hA, hB⟩ := endCycle_laneOk h
  refine openSlot_lineOk 0 ?_ ?_ ?_ ?_
  · cases lane <;> exact hA
  · cases lane <;> exact hB
  · cases lane <;> rfl
  · cases lane <;> rfl

theorem substituteStart_keeps (order : List Work) (p : Part) : Keeps p (substituteStart order p) := by
  refine .trans ?_ (presentCycle_keeps_ok _ _ _)
  refine ⟨fun h => ⟨(endCycle_laneOk h).1, (endCycle_laneOk h).2, ?_, ?_, ?_⟩, endCycle_storesOk⟩
  · simp [endCycle_line]
  · simp
  · simp [endCycle, settleLanes, closeSlot]

/-! ### Arrivals (R1) -/

theorem beaconArrival_keeps (lane : Lane) (cycle : Six) (order : List Work) (p : Part) :
    Keeps p (beaconArrival lane cycle order p) := by
  unfold beaconArrival classifyBeacon
  refine .ite (fun _ => .ite (fun _ => ?_) (fun _ => ?_)) (fun _ => beaconStart_keeps _ _ _ p)
  · exact .ite (fun _ => countError_keeps lane p) (fun _ => beaconStart_keeps _ _ _ p)
  · exact .ite (fun _ => creditLane_keeps lane p) (fun _ =>
      .ite (fun _ => (creditLane_keeps lane p).trans (setFlag_keeps .laneDisagree _))
        (fun _ => beaconStart_keeps _ _ _ p))

theorem driveOut_keeps (lane : Lane) {p : Part} {x : Part × Option (List Word)} (h : Keeps p x.1) :
    Keeps p (driveOut lane x) := by
  unfold driveOut
  split
  · exact h.trans (drive_keeps _ _ _)
  · exact h

theorem cellArrivalIn_keeps (lane : Lane) (words : List Word) (c : Cell) (intact : Bool) (p : Part) :
    Keeps p (cellArrivalIn lane words c intact p) := by
  unfold cellArrivalIn slotArrival
  split
  · refine .ite (fun _ => (countError_keeps lane p).trans (drive_keeps _ _ _)) (fun _ => ?_)
    exact driveOut_keeps lane
      (.trans (.trans (.ite (fun _ => .refl p) (fun _ => countError_keeps lane p)) (markHanded_keeps lane _))
        (handOver_keeps _ _ _ _ _))
  · exact .trans (.ite (fun _ => .refl p) (fun _ => countError_keeps lane p)) (drive_keeps _ _ _)

theorem arrive_keeps (lane : Lane) (words : List Word) (order : List Work) (p : Part) :
    Keeps p (arrive lane words order p) := by
  unfold arrive
  split
  · exact .ite (fun _ => (beaconArrival_keeps lane _ order p).trans (drive_keeps _ _ _))
      (fun _ => cellArrivalIn_keeps lane words _ _ p)
  · exact cellArrivalIn_keeps lane words _ _ p

/-! ### Steps -/

theorem lineOk_resetPart (lines : Lines) : LineOk (resetPart lines) := by
  refine ⟨⟨?_, ?_, ?_, ?_⟩, ⟨?_, ?_, ?_, ?_⟩, ?_, ?_, ?_⟩ <;>
    simp [resetPart, State.reset, LineInterface.reset, LaneState.reset, SlotEngine.reset]

theorem storesOk_resetPart (lines : Lines) : StoresOk (resetPart lines) := by
  refine ⟨fun i => ?_, Nat.zero_le _, Nat.zero_le _⟩
  have h : recordAt (resetPart lines) i = SlotRecord.cleared := by
    simp [recordAt, resetPart, State.reset, SlotEngine.reset]
  rw [h]
  exact recordOk_cleared

/-- Power-on reset meets both invariants whatever was before. -/
theorem powerOnReset_keeps (lines : ResetLines) (p : Part) :
    Keeps p (if lines.resetN then resetPart lines.toLines else heldPart lines.toLines p) :=
  .ite (fun _ => ⟨fun _ => lineOk_resetPart _, fun _ => storesOk_resetPart _⟩)
    (fun _ => ⟨fun _ => lineOk_resetPart lines.toLines, fun _ => storesOk_resetPart lines.toLines⟩)

theorem onPart_keeps {f : Part → Part} (h : ∀ p, Keeps p (f p)) {s t : State}
    (e : (Host.Outcome.next (s.onPart f) : Host.Outcome State Fault Refusal) = .next t) :
    Keeps s.part t.part := by
  cases e
  exact h s.part

/-- An event inside a block, by the two frames of its operation. -/
theorem when_keeps {c : Part → Bool} {f : Part → Part} (hs : ∀ p, StoreFrame p (f p))
    (hu : ∀ p, UnitFrame p (f p)) {s t : State} (e : when c f s = .next t) : Keeps s.part t.part :=
  onPart_keeps (fun p => .ite (fun _ => .of_frame (hs p) (hu p).line) (fun _ => .refl p)) e

theorem endChannelPhase_storeFrame (ch : Channel) (p : Part) : StoreFrame p (endChannelPhase ch p) := by
  unfold endChannelPhase
  split
  · exact .update
  · exact .refl p

theorem endChannelPhase_unitFrame (ch : Channel) (p : Part) : UnitFrame p (endChannelPhase ch p) := by
  unfold endChannelPhase
  split
  · exact .update
  · exact .refl p

theorem endChannelStep_storeFrame (ch : Channel) (p : Part) : StoreFrame p (endChannelStep ch p) := by
  unfold endChannelStep
  split
  · exact .update
  · exact .refl p

theorem endChannelStep_unitFrame (ch : Channel) (p : Part) : UnitFrame p (endChannelStep ch p) := by
  unfold endChannelStep
  split
  · exact .update
  · exact .refl p

/-- Every command keeps the line's invariant and the stores' sizes. -/
theorem exec_keeps (c : Instr) {s t : State} (e : exec c s = .next t) : Keeps s.part t.part := by
  cases c with
  | powerOnReset lines => exact onPart_keeps (powerOnReset_keeps lines) e
  | cellArrival lane words lines order =>
    exact onPart_keeps
      (fun p => .ite (fun _ => .trans .update (arrive_keeps lane words order _)) (fun _ => .refl p)) e
  | substituteCycleStart lines order =>
    exact onPart_keeps
      (fun p => .ite (fun _ => .trans .update (substituteStart_keeps order _)) (fun _ => .refl p)) e
  | slotOpening => exact onPart_keeps slotTimer_keeps e
  | laneDown => exact onPart_keeps (decideLanes_keeps _ _) e
  | laneUp => exact onPart_keeps (decideLanes_keeps _ _) e
  | otherCabTimeout => exact when_keeps (takeView_storeFrame _) (takeView_unitFrame _) e
  | activationAttempt => exact when_keeps attempt_storeFrame attempt_unitFrame e
  | settleComplete => exact when_keeps (fun _ => .update) (fun _ => .update) e
  | brakeTimeout =>
    exact when_keeps (activationFails_storeFrame _ _ _) (activationFails_unitFrame _ _ _) e
  | entryToActive => exact when_keeps enterActive_storeFrame enterActive_unitFrame e
  | pendingExitTaken => exact when_keeps takeExit_storeFrame takeExit_unitFrame e
  | scrubPassBegin =>
    exact when_keeps (fun _ => .trans .update (scrubTable_storeFrame _ _))
      (fun _ => .trans .update (scrubTable_unitFrame _ _)) e
  | stabledExit => exact when_keeps leaveStabled_storeFrame leaveStabled_unitFrame e
  | speedSourceStale => exact when_keeps speedGoesStale_storeFrame speedGoesStale_unitFrame e
  | speedLockAcquired => exact when_keeps (fun _ => .update) speedLocks_unitFrame e
  | selectionTimeout => exact when_keeps (select_storeFrame 0) (select_unitFrame 0) e
  | requestTimeout pos => exact when_keeps (timeOut_storeFrame pos) (timeOut_unitFrame pos) e
  | doorStatusStale =>
    exact when_keeps (fun _ => .update) (setRow_unitFrame (r := .doors) (by decide) 0) e
  | phaseEnd ch => exact when_keeps (endChannelPhase_storeFrame ch) (endChannelPhase_unitFrame ch) e
  | stepEnd ch => exact when_keeps (endChannelStep_storeFrame ch) (endChannelStep_unitFrame ch) e
  | hornMinReached => exact when_keeps (fun _ => .update) (fun _ => .update) e
  | hornStuck => exact when_keeps cutHorn_storeFrame cutHorn_unitFrame e
  | transferCompletion =>
    exact onPart_keeps (fun p => .ite (fun _ => completeTransfer_keeps p) (fun _ => .refl p)) e
  | status tag page => exact onPart_keeps (accept_keeps _ _ (statusCommand_keeps _ _)) e
  | clearStatus tag => exact onPart_keeps (accept_keeps _ _ (clearStatusCommand_keeps _)) e
  | writeStage tag offset count words =>
    exact onPart_keeps (accept_keeps _ _ (writeStage_keeps _ _ _ _)) e
  | transfer tag table index => exact onPart_keeps (accept_keeps _ _ (transfer_keeps _ _ _)) e
  | readEntry tag table index offset =>
    exact onPart_keeps (accept_keeps _ _ (readEntryCommand_keeps _ _ _ _)) e
  | envelopePointer tag breakpoint => exact onPart_keeps (accept_keeps _ _ (envelopePointer_keeps _ _)) e
  | envelopeData tag count values => exact onPart_keeps (accept_keeps _ _ (envelopeData_keeps _ _ _)) e
  | lockSetup tag => exact onPart_keeps (accept_keeps _ _ (lockSetupCommand_keeps _)) e
  | lock tag table =>
    exact onPart_keeps (acceptLock_keeps _ _ (lockCommand_keeps lockTable_keeps _ _ _)) e
  | unlock tag table =>
    exact onPart_keeps (acceptLock_keeps _ _ (lockCommand_keeps unlockTable_keeps _ _ _)) e
  | lockDown tag table =>
    exact onPart_keeps (acceptLock_keeps _ _ (lockCommand_keeps lockDownTable_keeps _ _ _)) e
  | setRestriction tag action value =>
    exact onPart_keeps (accept_keeps _ _ (setRestrictionCommand_keeps _ _ _)) e
  | readRecord tag index page => exact onPart_keeps (accept_keeps _ _ (readRecordCommand_keeps _ _ _)) e
  | stable tag => exact onPart_keeps (accept_keeps _ _ (stableCommand_keeps _)) e
  | wake tag => exact onPart_keeps (accept_keeps _ _ (wakeCommand_keeps _)) e
  | restart tag lines => exact onPart_keeps (accept_keeps _ _ (restartCommand_keeps _ _)) e
  | unknownCommand tag code => exact onPart_keeps (accept_keeps _ _ (unknownCommand_keeps _ _)) e

/-- Settles O56: by cases on the command at the front of the queue. -/
theorem stepKeepsTheLineAndTheStores : Obligations.StepKeepsTheLineAndTheStores := by
  intro s t e
  have keeps : Keeps s.part t.part := by
    unfold step at e
    split at e
    · cases e
      exact .refl _
    · next c rest _ => exact exec_keeps (s := { s with pending := rest }) c e
  exact ⟨keeps.line, keeps.stores⟩

end Sys2Proof.Machine
end

section
/-! ## Cells and their check (O5), and what an arrival comes to -/

namespace Sys2Proof.Machine

set_option Elab.async false

/-! ### Reading a cell back (R12, R13) -/

/-- The words between the header and the last are the payload. -/
theorem parseCell_concat (h0 h1 k : Word) (ws : List Word) :
    parseCell (h0 :: h1 :: ws ++ [k]) = some {
      slot := h0.extractLsb' 10 6
      cycle := h0.extractLsb' 4 6
      kind := kindOf (bitsOf h0 2 2)
      node := h1.extractLsb' 10 6
      length := bitsOf h1 0 4
      payload := ws
      check := k } := by
  cases ws with
  | nil => rfl
  | cons w ws =>
    have hd : (w :: (ws ++ [k])).dropLast = w :: ws := by
      rw [← List.cons_append, List.dropLast_concat]
    simp [parseCell, hd]

/-- Words that end in the check of the rest are a cell, where the length field counts the payload and a NULL
cell has none. -/
theorem intact_checked (h0 h1 : Word) (ws : List Word) (hlen : bitsOf h1 0 4 = ws.length)
    (hmax : ws.length ≤ 8) (hnull : kindOf (bitsOf h0 2 2) = .null → ws = []) :
    Intact (h0 :: h1 :: ws ++ [crc (h0 :: h1 :: ws)]) {
      slot := h0.extractLsb' 10 6
      cycle := h0.extractLsb' 4 6
      kind := kindOf (bitsOf h0 2 2)
      node := h1.extractLsb' 10 6
      length := bitsOf h1 0 4
      payload := ws
      check := crc (h0 :: h1 :: ws) } := by
  refine ⟨parseCell_concat _ _ _ _, ?_⟩
  have hk : (kindOf (bitsOf h0 2 2) != .null || bitsOf h1 0 4 == 0) = true := by
    by_cases h : kindOf (bitsOf h0 2 2) = .null
    · simp [hlen, hnull h]
    · simp [h]
  rw [passesIntegrity, List.dropLast_concat]
  simp [hlen, hmax] at hk ⊢
  exact hk

theorem kindOf_kindCode (k : Kind) : kindOf (kindCode k) = k := by cases k <;> rfl

theorem kindCode_lt (k : Kind) : kindCode k < 4 := by cases k <;> decide

/-- The fields of the first header word that the part makes (section 11.1). -/
theorem header0_fields (slot cycle : Six) (kind : Kind) :
    (word (slot.toNat * 1024 + cycle.toNat * 16 + kindCode kind * 4)).extractLsb' 10 6 = slot
      ∧ (word (slot.toNat * 1024 + cycle.toNat * 16 + kindCode kind * 4)).extractLsb' 4 6 = cycle
      ∧ bitsOf (word (slot.toNat * 1024 + cycle.toNat * 16 + kindCode kind * 4)) 2 2 = kindCode kind := by
  have hs := slot.isLt
  have hc := cycle.isLt
  have hk := kindCode_lt kind
  refine ⟨BitVec.eq_of_toNat_eq ?_, BitVec.eq_of_toNat_eq ?_, ?_⟩
  · simp [word, Nat.shiftRight_eq_div_pow]; omega
  · simp [word, Nat.shiftRight_eq_div_pow]; omega
  · simp [word, bitsOf]; omega

/-- The fields of the second header word that the part makes (section 11.1). -/
theorem header1_fields (node : Six) (n : Nat) (h : n ≤ 8) :
    (word (node.toNat * 1024 + n)).extractLsb' 10 6 = node ∧ bitsOf (word (node.toNat * 1024 + n)) 0 4 = n := by
  have hn := node.isLt
  refine ⟨BitVec.eq_of_toNat_eq ?_, ?_⟩
  · simp [word, Nat.shiftRight_eq_div_pow]; omega
  · simp [word, bitsOf]; omega

/-- Settles O5: the two header words give back their fields, and the check is that of the words before it. -/
theorem madeCellIsReadBack : Obligations.MadeCellIsReadBack := by
  intro slot cycle node kind payload hmax hnull
  obtain ⟨hslot, hcycle, hkind⟩ := header0_fields slot cycle kind
  obtain ⟨hnode, hlen⟩ := header1_fields node payload.length hmax
  refine ⟨_, intact_checked _ _ payload hlen hmax ?_, hslot, hcycle, ?_, hnode, hlen, rfl⟩
  · rw [hkind, kindOf_kindCode]
    exact hnull
  · rw [hkind, kindOf_kindCode]

/-! ### An arrival (R1) -/

theorem Intact.unique {words : List Word} {c c' : Cell} (h : Intact words c) (h' : Intact words c') :
    c = c' := by
  have := h.1.symm.trans h'.1
  simpa using this

/-- With RESET_N high an arrival is taken at the levels that it carries. -/
theorem exec_cellArrival {lane : Lane} {words : List Word} {lines : Lines} {order : List Work} {s : State}
    (h : s.part.resetN = true) :
    exec (.cellArrival lane words lines order) s =
      .next { s with part := arrive lane words order { s.part with lines := lines } } := by
  simp [exec, execCellArrival, State.onPart, h, withLines]

/-- A valid beacon goes to the line interface and is repeated unchanged (R3, R4, R5). -/
theorem arrive_beacon {words : List Word} {cycle : Six} (h : beaconCycle words = some cycle) (lane : Lane)
    (order : List Work) (p : Part) :
    arrive lane words order p = drive lane words (beaconArrival lane cycle order p) := by
  cases hp : parseCell words with
  | none => simp [beaconCycle, hp] at h
  | some c =>
    by_cases hb : passesIntegrity words c = true ∧ c.kind = .beacon ∧ c.slot = 0
    · have hc : c.cycle = cycle := by simpa [beaconCycle, hp, hb] using h
      simp only [arrive, hp]
      rw [if_pos hb, hc]
    · exact absurd h (by simp only [beaconCycle, hp]; rw [if_neg hb]; nofun)

/-- Words that are no valid beacon are judged: as the intact cell that they are, or as broken. -/
theorem arrive_other {words : List Word} (h : beaconCycle words = none) (lane : Lane) (order : List Work)
    (p : Part) :
    (∃ c, Intact words c ∧ arrive lane words order p = cellArrivalIn lane words c true p)
      ∨ (¬ ∃ c, Intact words c) ∧ ∃ c, arrive lane words order p = cellArrivalIn lane words c false p := by
  unfold arrive
  cases hp : parseCell words with
  | none => exact .inr ⟨by simp [Intact, hp], _, rfl⟩
  | some c =>
    have hb : ¬ (passesIntegrity words c = true ∧ c.kind = .beacon ∧ c.slot = 0) := fun hb => by
      simp [beaconCycle, hp, hb] at h
    simp only [if_neg hb]
    cases hi : passesIntegrity words c with
    | true => exact .inl ⟨c, ⟨hp, hi⟩, rfl⟩
    | false => exact .inr ⟨by simp [Intact, hp, hi], c, rfl⟩

/-- Settles O6: outside SYNCHRONISED there is no slot to judge a cell against. -/
theorem cellRepeatedOutsideSynchronised : Obligations.CellRepeatedOutsideSynchronised := by
  intro lane words lines order s
  refine ⟨fun hr => by simp [exec, execCellArrival, State.onPart, hr], fun hr hs hb => ?_⟩
  have judged : ∀ c intact, cellArrivalIn lane words c intact { s.part with lines := lines } =
      drive lane words (if intact && c.kind != .beacon then { s.part with lines := lines }
        else countError lane { s.part with lines := lines }) := fun c intact => by
    simp [cellArrivalIn, judgingSlot, hs]
  rw [exec_cellArrival hr]
  rcases arrive_other hb lane order { s.part with lines := lines } with ⟨c, hi, e⟩ | ⟨hn, c, e⟩
  · rw [e, judged]
    refine ⟨fun ⟨c', hi', hk⟩ => ?_, fun hn => ?_⟩
    · rw [hi.unique hi']
      simp [hk]
    · have hk : c.kind = .beacon := by
        by_contra hk
        exact hn ⟨c, hi, hk⟩
      simp [hk]
  · rw [e, judged]
    exact ⟨fun ⟨c', hi', _⟩ => absurd ⟨c', hi'⟩ hn, fun _ => rfl⟩

/-- Settles O9: by the credit and the cycle number, as `classifyBeacon` tests them. -/
theorem beaconCopyIsClassified : Obligations.BeaconCopyIsClassified := by
  intro lane words lines order s cycle hr hb hs
  rw [exec_cellArrival hr, arrive_beacon hb]
  refine ⟨fun hc he => ?_, fun hc he => ?_, fun hc he ho => ?_⟩
  · simp [beaconArrival, classifyBeacon, hs, hc, he]
  · simp [beaconArrival, classifyBeacon, hs, hc, he]
  · simp [beaconArrival, classifyBeacon, hs, hc, he, ho]

/-! ### The lanes (R17, R18) -/

/-- The state that the runs give a lane where both changes are decided (R17). -/
theorem settleLane_both (x : LaneState) :
    settleLane true true x =
      { x with up := if x.up then decide (x.misses < 8) else decide (2 ≤ x.beacons) } := by
  by_cases hm : x.misses < 8
  · cases h : x.up <;> simp [settleLane, goesDown, comesUp, h, hm, Nat.not_le.mpr hm]
  · cases h : x.up <;> simp [settleLane, goesDown, comesUp, h, hm, Nat.not_lt.mp hm]

/-- Settles O7: by the credit for the ending cycle, and the lane's state before. -/
theorem laneFollowsItsBeacons : Obligations.LaneFollowsItsBeacons := by
  intro x hb hm
  rw [settleLane_both]
  refine ⟨fun hc => ?_, fun hc => ?_⟩
  · have hrun : min 2 (x.beacons + 1) = if x.beacons = 0 then 1 else 2 := by split <;> omega
    have hup : (2 ≤ if x.beacons = 0 then 1 else 2) ↔ 1 ≤ x.beacons := by split <;> omega
    cases h : x.up <;> simp [countRuns, hc, h, hup, hrun]
  · have hrun : min 8 (x.misses + 1) = if x.misses = 8 then 8 else x.misses + 1 := by split <;> omega
    have hup : (if x.misses = 8 then 8 else x.misses + 1) < 8 ↔ x.misses < 7 := by split <;> omega
    cases h : x.up <;> simp [countRuns, hc, h, hup, hrun]

end Sys2Proof.Machine
end

section
/-! ## The lanes' events, and the beginning and the failures of an activation (O12, O13) -/

namespace Sys2Proof.Machine

set_option Elab.async false

/-! ### One lane and the other -/

theorem lanes_of_ne {l m : Lane} (h : l ≠ m) : (l = .A ∧ m = .B) ∨ (l = .B ∧ m = .A) := by
  cases l <;> cases m <;> simp_all

theorem lineLost_of_ne {l m : Lane} (h : l ≠ m) (p : Part) :
    lineLost p = (!(laneOf p.line l).up && !(laneOf p.line m).up) := by
  rcases lanes_of_ne h with ⟨rfl, rfl⟩ | ⟨rfl, rfl⟩
  · rfl
  · exact Bool.and_comm _ _

theorem degradedBy_of_ne {l m : Lane} (h : l ≠ m) (a b : LineInterface) :
    degradedBy a b = ((wentDown (laneOf a l) (laneOf b l) && (laneOf b m).up)
      || (wentDown (laneOf a m) (laneOf b m) && (laneOf b l).up)) := by
  rcases lanes_of_ne h with ⟨rfl, rfl⟩ | ⟨rfl, rfl⟩
  · rfl
  · exact Bool.or_comm _ _

theorem settleLane_falls {x : LaneState} (hup : x.up = true) (h : 8 ≤ x.misses) (up : Bool) :
    settleLane true up x = { x with up := false } := by
  simp [settleLane, goesDown, hup, h]

theorem settleLane_rises {x : LaneState} (hup : x.up = false) (h : 2 ≤ x.beacons) (down : Bool) :
    settleLane down true x = { x with up := true } := by
  simp [settleLane, goesDown, comesUp, hup, h]

/-- A lane whose state does not change as its runs are. -/
theorem settleLane_stands {down up : Bool} {x : LaneState} (hd : down = true → goesDown x = false)
    (hu : up = true → comesUp x = false) : settleLane down up x = x := by
  cases down <;> cases up <;> simp_all [settleLane]

/-- Where one lane alone changes, the lanes' event changes that lane, and sets the flags and presents the
loss, or its end, as that change has it (R17, R18). -/
theorem decideLanes_one {l m : Lane} (hlm : l ≠ m) {down up : Bool} {x : LaneState} {p : Part}
    (hl : settleLane down up (laneOf p.line l) = x)
    (hm : settleLane down up (laneOf p.line m) = laneOf p.line m) {q : Part}
    (hq : q = { p with line := withLane p.line l x }) :
    decideLanes down up p = presentLoss (lossChange p q) (setFlagIf (lossChange p q == some .lost) .lineLost
      (setFlagIf (degradedBy p.line q.line) .laneDegraded q)) := by
  subst hq hl
  rcases lanes_of_ne hlm with ⟨rfl, rfl⟩ | ⟨rfl, rfl⟩
  · simp only [laneOf] at hm
    simp only [decideLanes, settleLanes, withLane, laneOf, hm]
    rfl
  · simp only [laneOf] at hm
    simp only [decideLanes, settleLanes, withLane, laneOf, hm]
    rfl

/-! ### The beginning of an activation (R49) -/

/-- Outside ACTIVE an evaluation judges neither the envelope nor the episode (R91, R96). -/
theorem evaluate_of_not_active {p : Part} (h : p.cab.state ≠ .active) : evaluate p = finish (judgeInputs p) := by
  have hj : (judgeInputs p).cab.state ≠ .active := h
  simp [evaluate, judgeEnvelope, judgeEpisode, hj]

/-- What an activation leaves as it was, and the cab that it begins with (R49, R65). -/
theorem beginActivation_frame (n : Nat) (p : Part) :
    (beginActivation n p).cab = { p.cab with
        state := .activating
        stage := .settle
        table := none
        count := 0
        settleLength := n
        pending := .none
        driveRequest := false }
      ∧ (beginActivation n p).line = p.line ∧ (beginActivation n p).slots = p.slots
      ∧ (beginActivation n p).junction = p.junction ∧ (beginActivation n p).stop = p.stop
      ∧ (beginActivation n p).sound = p.sound ∧ (beginActivation n p).tables = p.tables := by
  unfold beginActivation tractionActivates
  rw [evaluate_of_not_active (by split <;> simp)]
  split <;> exact ⟨rfl, rfl, rfl, rfl, rfl, rfl, rfl⟩

theorem leaveStabledIfDue_of_ne {p : Part} (h : p.cab.state ≠ .stabled) : leaveStabledIfDue p = p := by
  simp [leaveStabledIfDue, stabledExitIsDue, h]

/-- No attempt leads to STABLED. -/
theorem attempt_not_stabled {p : Part} (h : p.cab.state ≠ .stabled) : (attempt p).cab.state ≠ .stabled := by
  unfold attempt
  split
  · simp [beginActivation_frame]
  · exact h

/-! ### LANE_DOWN and LANE_UP -/

theorem exec_laneDown (s : State) :
    exec .laneDown s = .next { s with part := decideLanes true false s.part } := rfl

theorem exec_laneUp (s : State) :
    exec .laneUp s = .next { s with part := decideLanes false true s.part } := rfl

/-- Settles O12: by the lane that changes, and the other. -/
theorem laneEventsFollowTheRuns : Obligations.LaneEventsFollowTheRuns := by
  intro s
  rw [exec_laneDown, exec_laneUp]
  generalize s.part = p
  refine ⟨fun hcab => ⟨fun l m hlm hl h8 hm hm8 => ?_, fun l m hlm hl h8 hm => ?_, fun h => ?_⟩,
    fun l m hlm hl h2 => ⟨fun hm => ?_, fun hm hm2 hst hreq hview => ?_⟩⟩
  · rw [decideLanes_one hlm (settleLane_falls hl h8 _)
      (settleLane_stands (by simp [goesDown, hm8]) (by simp)) rfl]
    simp [lossChange, lineLost_of_ne hlm, degradedBy_of_ne hlm, laneOf_withLane_ne hlm, wentDown, hl, hm,
      presentLoss]
  · rw [decideLanes_one hlm (settleLane_falls hl h8 _)
      (settleLane_stands (by simp [goesDown, hm]) (by simp)) rfl]
    simp [lossChange, lineLost_of_ne hlm, degradedBy_of_ne hlm, laneOf_withLane_ne hlm, wentDown, hl, hm,
      presentLoss, hcab]
  · obtain ⟨hA, hA8⟩ := h .A
    obtain ⟨hB, hB8⟩ := h .B
    simp only [laneOf] at hA hA8 hB hB8
    simp [decideLanes, settleLanes, settleLane_falls hA hA8, settleLane_falls hB hB8, lossChange, lineLost,
      degradedBy, hA, presentLoss, hcab]
  · rw [decideLanes_one hlm (settleLane_rises hl h2 _)
      (settleLane_stands (by simp) (by simp [comesUp, hm])) rfl]
    simp [lossChange, lineLost_of_ne hlm, degradedBy_of_ne hlm, laneOf_withLane_ne hlm, wentDown, hl, hm,
      presentLoss]
  · rw [decideLanes_one hlm (settleLane_rises hl h2 _)
      (settleLane_stands (by simp) (by simp [comesUp, hm2])) rfl]
    generalize hq : ({ p with line := withLane p.line l { laneOf p.line l with up := true } } : Part) = q
    have hloss : lossChange p q = some .ended := by
      simp [← hq, lossChange, lineLost_of_ne hlm, laneOf_withLane_ne hlm, hl, hm]
    have hflags : degradedBy p.line q.line = false := by
      simp [← hq, degradedBy_of_ne hlm, laneOf_withLane_ne hlm, wentDown, hl, hm]
    have hdue : attemptIsDue q = true := by
      simp [← hq, attemptIsDue, hst, hreq, lineLost_of_ne hlm]
    have hbegin : attempt q = beginActivation (actSettle q) q := by
      simp [attempt, ← hq, hview, viewIsClear]
    obtain ⟨hcab, hline, hslots, hjunction, hstop, hsound, htables⟩ := beginActivation_frame (actSettle q) q
    refine ⟨beginActivation (actSettle q) q, ?_, ?_⟩
    · have hlost : (some LossChange.ended == some .lost) = false := rfl
      rw [hloss, hflags, hlost]
      simp [presentLoss, attemptIfDue, hdue, leaveStabledIfDue_of_ne, hbegin, hcab]
    · rw [hcab, hline, hslots, hjunction, hstop, hsound, htables, ← hq]
      exact ⟨rfl, rfl, rfl, rfl, rfl, rfl, rfl, rfl, rfl, rfl, rfl⟩

/-! ### What a failed activation leaves (R56, R102, R165) -/

/-- Between two parts the line interface and the sticky flags alone differ, the flags given being set. -/
structure FlaggedLine (flags : List Flag) (p q : Part) : Prop where
  rest : q = { p with line := q.line, mgmt := { p.mgmt with flags := q.mgmt.flags } }
  flags : ∀ f, hasFlag q.mgmt.flags f = (hasFlag p.mgmt.flags f || decide (f ∈ flags))

theorem FlaggedLine.refl (p : Part) : FlaggedLine [] p p := ⟨rfl, by simp⟩

/-- A failure ends the activation with ACT_FAULT, and with the flags set before it. -/
theorem activationFails_ended (cause : FaultCause) (stage : Stage) (table : Option TableId)
    {flags : List Flag} {p q : Part} (h : FlaggedLine flags p q) :
    ActivationEnded (.actFault :: flags) { cause := cause, stage := stage, table := table } p
        (activationFails cause stage table q)
      ∧ (activationFails cause stage table q).line = q.line := by
  obtain ⟨rest, hf⟩ := h
  generalize q.line = line at rest
  generalize q.mgmt.flags = set at rest hf
  subst rest
  refine ⟨⟨rfl, fun f => ?_, rfl, rfl, rfl, fun x => ?_, rfl, rfl, rfl, rfl, rfl, rfl, rfl, rfl, rfl,
    rfl⟩, rfl⟩
  · show hasFlag (withFlag set .actFault) f = _
    rw [hasFlag_withFlag, hf, Bool.or_assoc, ← Bool.decide_or]
    simp [or_comm, eq_comm (a := f)]
  · cases x <;> rfl

theorem hasPassed_iff (t : TableId) (p : Part) : hasPassed p t = true ↔ HasBeenChecked t p := by
  unfold hasPassed HasBeenChecked
  cases p.cab.stage <;> simp
  cases p.cab.table <;> simp

/-- Both lanes DOWN after LANE_DOWN, with an activation in progress (R18, R55). -/
theorem laneDown_fails {p : Part} (hst : p.cab.state = .activating)
    (hup : ∃ l, (laneOf p.line l).up = true)
    (hdown : ∀ l, (laneOf p.line l).up = true → 8 ≤ (laneOf p.line l).misses) :
    ∃ q, FlaggedLine [.lineLost] p q
      ∧ q.line = { p.line with
          laneA := { p.line.laneA with up := false }
          laneB := { p.line.laneB with up := false } }
      ∧ decideLanes true false p = activationFails .lineLost p.cab.stage p.cab.table q := by
  have fallen : ∀ l, settleLane true false (laneOf p.line l) = { laneOf p.line l with up := false } :=
    fun l => by
      cases h : (laneOf p.line l).up with
      | true => exact settleLane_falls h (hdown l h) _
      | false =>
        rw [settleLane_stands (by simp [goesDown, h]) (by simp), ← h]
  have hA := fallen .A
  have hB := fallen .B
  simp only [laneOf] at hA hB
  have hlost : lineLost p = false := by
    obtain ⟨l, hl⟩ := hup
    cases l <;> simp_all [lineLost, laneOf]
  refine ⟨setFlag .lineLost { p with line := { p.line with
    laneA := { p.line.laneA with up := false }, laneB := { p.line.laneB with up := false } } },
    ⟨rfl, fun f => ?_⟩, rfl, ?_⟩
  · simp [eq_comm]
  · simp [decideLanes, settleLanes, hA, hB, lossChange, hlost, degradedBy, presentLoss, hst]
    simp [lineLost]

/-- Settles O13: each cause comes to `activationFails`. -/
theorem failedActivationReturnsToInactive : Obligations.FailedActivationReturnsToInactive := by
  refine ⟨fun s hst => ⟨fun hup hdown => ?_, fun hstage hcount => ?_⟩, fun p hst hstage =>
    ⟨fun hlt => ?_, fun hge => ?_⟩, fun t p => ⟨fun hst hc => ?_, fun hn => ?_⟩⟩
  · obtain ⟨q, hq, hline, e⟩ := laneDown_fails hst hup hdown
    obtain ⟨ended, hl⟩ := activationFails_ended .lineLost s.part.cab.stage s.part.cab.table hq
    exact ⟨_, by rw [exec_laneDown, e], ended, hl.trans hline⟩
  · obtain ⟨ended, hl⟩ := activationFails_ended .brakeTimeout .brakeTest none (.refl s.part)
    exact ⟨_, when_true (by simp [brakeTestIsOver, hst, hstage, hcount]), ended, hl⟩
  · have hn : ¬ 1000 ≤ p.cab.count + 1 := by omega
    simp [stageCycle, hstage, countStage, brakeTestIsOver, hst, hn]
  · have hfail : stageCycle p = activationFails .brakeTimeout .brakeTest none p := by
      simp [stageCycle, hstage, countStage, brakeTestIsOver, hst, hge, brakeTestFails]
      rfl
    rw [hfail]
    exact activationFails_ended .brakeTimeout .brakeTest none (.refl p)
  · have hfail : tableChanged t p = activationFails .tableChanged p.cab.stage (some t) p := by
      simp [tableChanged, hst, (hasPassed_iff t p).mpr hc]
    rw [hfail]
    exact activationFails_ended _ _ _ (.refl p)
  · have hneg : ¬ (p.cab.state = .activating ∧ hasPassed p t = true) := by
      rw [hasPassed_iff]
      tauto
    simp [tableChanged, hneg]

end Sys2Proof.Machine
end

section
/-! ## A cell in an open slot (O15 to O18) -/

namespace Sys2Proof.Machine

set_option Elab.async false

/-! ### The words of an intact cell, and the rewritten copy (R13, R30) -/

theorem bitsOf_eq (w : Word) (lo n : Nat) : bitsOf w lo n = (w.extractLsb' lo n).toNat := by
  simp [bitsOf, Nat.shiftRight_eq_div_pow]

/-- The words of an intact cell: two of header, the payload that the length field counts, and the check. -/
theorem Intact.words {words : List Word} {c : Cell} (h : Intact words c) :
    ∃ h0 h1 k, words = h0 :: h1 :: c.payload ++ [k] ∧ c.slot = h0.extractLsb' 10 6
      ∧ c.cycle = h0.extractLsb' 4 6 ∧ c.kind = kindOf (bitsOf h0 2 2) ∧ c.node = h1.extractLsb' 10 6
      ∧ c.length = bitsOf h1 0 4 ∧ c.length = c.payload.length ∧ c.length ≤ 8
      ∧ (c.kind = .null → c.length = 0) := by
  obtain ⟨parsed, tests⟩ := h
  simp only [passesIntegrity, Bool.and_eq_true, beq_iff_eq, decide_eq_true_eq, Bool.or_eq_true,
    bne_iff_ne] at tests
  obtain ⟨⟨⟨-, hlen⟩, hmax⟩, hnull⟩ := tests
  match words, parsed with
  | h0 :: h1 :: w :: ws, parsed =>
    cases parsed
    refine ⟨h0, h1, (w :: ws).getLast (by simp), ?_, rfl, rfl, rfl, rfl, rfl, hlen, hmax,
      fun hk => hnull.resolve_left fun hn => hn hk⟩
    rw [List.cons_append, List.cons_append, List.dropLast_concat_getLast]

/-- A cell whose length does not reach word 2 is not rewritten (R30). -/
theorem rewritten_short {words : List Word} {c : Cell} (h : Intact words c) (hlen : c.length ≤ 2)
    (ack : Nat) : rewritten ack words = words := by
  obtain ⟨h0, h1, k, rfl, -, -, -, -, -, hp, -, -⟩ := h.words
  match hc : c.payload with
  | [] => rfl
  | [_] => rfl
  | [_, _] => rfl
  | _ :: _ :: _ :: _ => simp [hc] at hp; omega

/-- The masks of a rewritten copy keep the assigned bits of the header. -/
theorem mask_header0 (w : Word) :
    (w &&& 0xFFFC).extractLsb' 10 6 = w.extractLsb' 10 6
      ∧ (w &&& 0xFFFC).extractLsb' 4 6 = w.extractLsb' 4 6
      ∧ (w &&& 0xFFFC).extractLsb' 2 2 = w.extractLsb' 2 2 := by
  refine ⟨?_, ?_, ?_⟩ <;> refine BitVec.eq_of_getLsbD_eq fun i hi => ?_ <;> interval_cases i <;> simp

theorem mask_header1 (w : Word) :
    (w &&& 0xFC0F).extractLsb' 10 6 = w.extractLsb' 10 6
      ∧ (w &&& 0xFC0F).extractLsb' 0 4 = w.extractLsb' 0 4 := by
  refine ⟨?_, ?_⟩ <;> refine BitVec.eq_of_getLsbD_eq fun i hi => ?_ <;> interval_cases i <;> simp

/-- The rewritten copy of a cell that reaches word 2: an intact cell of the same header, with the acknowledge
value in word 2, the zone and the press counters as they came, and the rest 0 (R30, R191). -/
theorem rewritten_intact {words : List Word} {c : Cell} (h : Intact words c) (hlen : 3 ≤ c.length)
    (ack : Nat) :
    ∃ c', Intact (rewritten ack words) c' ∧ c'.slot = c.slot ∧ c'.cycle = c.cycle ∧ c'.kind = c.kind
      ∧ c'.node = c.node ∧ c'.length = c.length
      ∧ c'.payload = [wordAt c.payload 0 &&& 7, wordAt c.payload 1, word ack]
          ++ List.replicate (c.length - 3) 0 := by
  obtain ⟨h0, h1, k, rfl, hslot, hcycle, hkind, hnode, hfield, hp, hmax, hnull⟩ := h.words
  obtain ⟨mslot, mcycle, mkind⟩ := mask_header0 h0
  obtain ⟨mnode, mlen⟩ := mask_header1 h1
  match hc : c.payload with
  | [] => simp [hc] at hp; omega
  | [_] => simp [hc] at hp; omega
  | [_, _] => simp [hc] at hp; omega
  | w0 :: w1 :: w2 :: ws =>
    have hws : c.length = ws.length + 3 := by simpa [hc] using hp
    have hcopy : rewritten ack (h0 :: h1 :: (w0 :: w1 :: w2 :: ws) ++ [k]) =
        (h0 &&& 0xFFFC) :: (h1 &&& 0xFC0F) :: ((w0 &&& 7) :: w1 :: word ack :: List.replicate ws.length 0)
          ++ [crc ((h0 &&& 0xFFFC) :: (h1 &&& 0xFC0F) :: ((w0 &&& 7) :: w1 :: word ack
            :: List.replicate ws.length 0))] := by
      cases ws <;> simp [rewritten]
    rw [hcopy]
    refine ⟨_, intact_checked _ _ _ ?_ ?_ ?_, ?_⟩
    · rw [bitsOf_eq, mlen, ← bitsOf_eq, ← hfield, hws]
      simp
    · simp; omega
    · rw [bitsOf_eq, mkind, ← bitsOf_eq, ← hkind]
      exact fun hk => absurd (hnull hk) (by omega)
    · simp only [bitsOf_eq, mslot, mcycle, mkind, mnode, mlen]
      rw [← bitsOf_eq, ← bitsOf_eq, ← hslot, ← hcycle, ← hkind, ← hnode, ← hfield]
      refine ⟨rfl, rfl, rfl, rfl, rfl, ?_⟩
      simp [wordAt, hws]

theorem wordAt_rewritten {words : List Word} {c : Cell} (h : Intact words c) (hlen : 3 ≤ c.length)
    (ack : Nat) : wordAt (rewritten ack words) 4 = word ack := by
  obtain ⟨h0, h1, k, rfl, -, -, -, -, -, hp, -, -⟩ := h.words
  match hc : c.payload with
  | [] => simp [hc] at hp; omega
  | [_] => simp [hc] at hp; omega
  | [_, _] => simp [hc] at hp; omega
  | w0 :: w1 :: w2 :: ws => cases ws <;> simp [rewritten, wordAt]

/-! ### The judging of a cell (R1, R14, R16) -/

theorem appliedDisposition_own_iff (st : CabState) (e : SlotEntry) :
    appliedDisposition st e = .own ↔ e.disposition = .own := by
  have fitted : fittedDisposition e = .own ↔ e.disposition = .own := by
    unfold fittedDisposition
    cases e.disposition <;> simp <;> split <;> simp
  have inactive : inactiveDisposition (fittedDisposition e) = .own ↔ fittedDisposition e = .own := by
    unfold inactiveDisposition
    cases fittedDisposition e <;> simp
  have stabled : stabledDisposition e.fn (fittedDisposition e) = .own ↔ fittedDisposition e = .own := by
    unfold stabledDisposition
    cases fittedDisposition e <;> simp
    split <;> simp
  cases st with
  | inactive => exact inactive.trans fitted
  | stabled => exact stabled.trans fitted
  | activating => exact fitted
  | active => exact fitted
  | hold => exact fitted

theorem addressed_iff (c : Cell) (p : Part) : addressed c p = true ↔ IsAddressed c p := by
  simp [addressed, IsAddressed, and_assoc]

theorem not_addressed_iff (c : Cell) (p : Part) : addressed c p = false ↔ ¬ IsAddressed c p := by
  rw [← addressed_iff, Bool.not_eq_true]

/-- Words that are an intact cell of another kind are no valid beacon. -/
theorem Intact.beaconCycle_none {words : List Word} {c : Cell} (h : Intact words c)
    (hk : c.kind ≠ .beacon) : beaconCycle words = none := by
  simp [beaconCycle, h.1, hk]

theorem cellArrivalIn_open {p : Part} {n : Six} (hs : p.line.state = .synchronised)
    (ho : p.line.slotOpen = some n) (hn : n ≠ 0) (lane : Lane) (words : List Word) (c : Cell)
    (intact : Bool) : cellArrivalIn lane words c intact p = slotArrival n lane words c intact p := by
  simp only [cellArrivalIn, judgingSlot, hs, if_true, ho, if_neg hn]

/-- A valid cell in an open slot is handed over, with nothing counted (R1, R14). -/
theorem exec_arrival_valid {lane : Lane} {words : List Word} {c : Cell} {s : State} {n : Six}
    (hr : s.part.resetN = true) (hs : s.part.line.state = .synchronised) (ho : s.part.line.slotOpen = some n)
    (hn : n ≠ 0) (hi : Intact words c) (hk : c.kind ≠ .beacon) (hslot : c.slot = n)
    (hcycle : c.cycle = s.part.line.counter) (hh : (laneOf s.part.line lane).handed = false)
    (lines : Lines) (order : List Work) :
    exec (.cellArrival lane words lines order) s = .next { s with
      part := driveOut lane (handOver lane words c true
        (tookCell lane lines (laneOf s.part.line lane).errors s.part)) } := by
  have hb := hi.beaconCycle_none hk
  rw [exec_cellArrival hr]
  rcases arrive_other hb lane order { s.part with lines := lines } with ⟨c', hi', e⟩ | ⟨hno, -⟩
  · cases hi.unique hi'
    have pass : passesSchedule n lane c { s.part with lines := lines } = true := by
      simp [passesSchedule, hk, hslot, hcycle, hh]
    rw [e, cellArrivalIn_open (p := { s.part with lines := lines }) hs ho hn, slotArrival, pass]
    rfl
  · exact absurd ⟨c, hi⟩ hno

/-- An invalid cell in an open slot is counted against its lane and handed over (R1, R16). -/
theorem exec_arrival_invalid {lane : Lane} {words : List Word} {s : State} {n : Six}
    (hr : s.part.resetN = true) (hs : s.part.line.state = .synchronised) (ho : s.part.line.slotOpen = some n)
    (hn : n ≠ 0) (hb : beaconCycle words = none) (hv : ¬ IsValid lane words s.part)
    (lines : Lines) (order : List Work) :
    ∃ c, exec (.cellArrival lane words lines order) s = .next { s with
      part := driveOut lane (handOver lane words c false
        (tookCell lane lines (min 65535 ((laneOf s.part.line lane).errors + 1)) s.part)) } := by
  have took : markHanded lane (countError lane { s.part with lines := lines }) =
      tookCell lane lines (min 65535 ((laneOf s.part.line lane).errors + 1)) s.part := by
    cases lane <;> rfl
  rw [exec_cellArrival hr, ← took]
  rcases arrive_other hb lane order { s.part with lines := lines } with ⟨c, hi, e⟩ | ⟨-, c, e⟩
  · have fails : passesSchedule n lane c { s.part with lines := lines } = false := by
      by_contra hp
      simp only [passesSchedule, Bool.not_eq_false, Bool.and_eq_true, bne_iff_ne, beq_iff_eq,
        Bool.not_eq_true'] at hp
      obtain ⟨⟨⟨hk, hslot⟩, hcycle⟩, hh⟩ := hp
      exact hv ⟨c, hi, hk, by rw [ho, hslot], hcycle, hh⟩
    refine ⟨c, ?_⟩
    rw [e, cellArrivalIn_open (p := { s.part with lines := lines }) hs ho hn, slotArrival, fails]
    rfl
  · refine ⟨c, ?_⟩
    rw [e, cellArrivalIn_open (p := { s.part with lines := lines }) hs ho hn]
    rfl

theorem handOver_governed {p : Part} {g : Governing} (h : p.slots.governing = some g) (lane : Lane)
    (words : List Word) (c : Cell) (valid : Bool) :
    handOver lane words c valid p = disposeCell g lane words c valid p := by
  simp [handOver, h]

theorem handOver_ungoverned {p : Part} (h : p.slots.governing = none) (lane : Lane)
    (words : List Word) (c : Cell) (valid : Bool) :
    handOver lane words c valid p = (p, some words) := by
  simp [handOver, h]

/-- Settles O16: OWN takes no account of the verdict. -/
theorem arrivalInOwnSlotCollides : Obligations.ArrivalInOwnSlotCollides := by
  intro lane words lines order s n g hr hs ho hn hg hd hb
  have collides : ∀ errors c valid, driveOut lane (handOver lane words c valid
        (tookCell lane lines errors s.part)) =
      putRecord g.index { withOutcome lane .collision (recordAt s.part g.index) with collision := true }
        (tookCell lane lines errors s.part) := fun errors c valid => by
    rw [handOver_governed (p := tookCell lane lines errors s.part) hg,
      disposeCell_own _ _ _ _ ((appliedDisposition_own_iff _ _).mpr hd)]
    rfl
  by_cases hv : IsValid lane words s.part
  · obtain ⟨c, hi, hk, hslot, hcycle, hh⟩ := id hv
    have hslot' : c.slot = n := by simpa [ho] using hslot.symm
    refine ⟨(laneOf s.part.line lane).errors, ?_, fun _ => rfl, fun hnot => absurd hv hnot⟩
    rw [exec_arrival_valid hr hs ho hn hi hk hslot' hcycle hh, collides]
    rfl
  · obtain ⟨c, e⟩ := exec_arrival_invalid hr hs ho hn hb hv lines order
    refine ⟨_, ?_, fun hyes => absurd hyes hv, fun _ => rfl⟩
    rw [e, collides]
    rfl

end Sys2Proof.Machine
end

section
namespace Sys2Proof.Machine

set_option Elab.async false

/-! ### What lane select and pairing do with a valid cell (R27, R28) -/

/-- A cell as the pairing mark keeps it (R28). -/
def markOf (c : Cell) : PairingMark := { kind := c.kind, length := c.length, payload := c.payload }

/-- The lane select takes no copy: not this lane's, or no NULL cell (R27). -/
theorem observeCell_passed_over {g : Governing} {lane : Lane} {c : Cell}
    (h : g.entry.select = .none ∨ (g.entry.select = .A ∧ (lane = .B ∨ c.kind = .null))
      ∨ (g.entry.select = .B ∧ (lane = .A ∨ c.kind = .null))) (p : Part) :
    observeCell g lane c p = p := by
  rcases h with h | ⟨h, h'⟩ | ⟨h, h'⟩
  · simp [observeCell, h]
  · rcases h' with h' | h' <;> simp [observeCell, h, h']
  · rcases h' with h' | h' <;> simp [observeCell, h, h']

/-- A NULL cell that comes first under FIRST_VALID is the pairing mark and is not stored (R28). -/
theorem observeCell_first_null {g : Governing} {c : Cell} {p : Part} (hsel : g.entry.select = .firstValid)
    (hm : p.slots.mark = none) (hk : c.kind = .null) (lane : Lane) :
    observeCell g lane c p = { p with slots := { p.slots with mark := some (markOf c) } } := by
  simp [observeCell, pairCell, hsel, hm, hk, markOf]

/-- A second copy that agrees with the first (R28). -/
theorem observeCell_agrees {g : Governing} {c : Cell} {p : Part} (hsel : g.entry.select = .firstValid)
    (hm : p.slots.mark = some (markOf c)) (lane : Lane) : observeCell g lane c p = p := by
  simp [observeCell, pairCell, hsel, hm, markOf]

/-- A second copy that differs from the first (R28). -/
theorem observeCell_disagrees {g : Governing} {c : Cell} {p : Part} {first : PairingMark}
    (hsel : g.entry.select = .firstValid) (hm : p.slots.mark = some first) (hne : first ≠ markOf c)
    (lane : Lane) : observeCell g lane c p = disagree g p := by
  have hne' : ¬ first = { kind := c.kind, length := c.length, payload := c.payload } := hne
  simp [observeCell, pairCell, hsel, hm, hne']

theorem eq_markOf_iff (first : PairingMark) (c : Cell) :
    first = markOf c ↔ first.kind = c.kind ∧ first.length = c.length ∧ first.payload = c.payload := by
  cases first
  simp [markOf]

/-- A copy that is stored: under FIRST_VALID it is the pairing mark from then on (R27, R28). -/
theorem observeCell_stores {g : Governing} {lane : Lane} {c : Cell} {p : Part} (hk : c.kind ≠ .null)
    (h : (g.entry.select = .firstValid ∧ p.slots.mark = none) ∨ (g.entry.select = .A ∧ lane = .A)
      ∨ (g.entry.select = .B ∧ lane = .B)) :
    observeCell g lane c p = storeCell g lane c { p with slots := { p.slots with
      mark := if g.entry.select = .firstValid then some (markOf c) else p.slots.mark } } := by
  rcases h with ⟨h, h'⟩ | ⟨h, h'⟩ | ⟨h, h'⟩
  · simp [observeCell, pairCell, h, h', hk, markOf]
  · simp [observeCell, h, h', hk]
  · simp [observeCell, h, h', hk]

/-! ### A valid cell and its outgoing cell (R25, R29, R30) -/

/-- A disposition that stores: the cell goes to lane select and pairing, and out as the disposition has it. -/
theorem disposeCell_observes {g : Governing} {c : Cell} {p : Part}
    (h : appliedDisposition p.cab.state g.entry = .observe ∨ appliedDisposition p.cab.state g.entry = .rewrite
      ∨ (appliedDisposition p.cab.state g.entry = .take ∧ IsAddressed c p)) (lane : Lane)
    (words : List Word) :
    ∃ out, disposeCell g lane words c true p =
        (observeCell g lane c (setOutcome g lane .valid p), some out)
      ∧ (appliedDisposition p.cab.state g.entry = .observe → out = words)
      ∧ (appliedDisposition p.cab.state g.entry = .take → out = nullCell p)
      ∧ (appliedDisposition p.cab.state g.entry = .rewrite → out =
          rewritten (acknowledge (observeCell g lane c (setOutcome g lane .valid p)) (zoneOf c)) words) := by
  rcases h with h | h | ⟨h, ha⟩
  · exact ⟨_, disposeCell_observe _ _ _ _ h, by simp [h]⟩
  · exact ⟨_, disposeCell_rewrite _ _ _ h, by simp [h]⟩
  · exact ⟨_, disposeCell_take_addressed _ _ _ h ((addressed_iff c p).mpr ha), by simp [h]⟩

/-- A disposition that does not: the outcome is the cell's only trace. -/
theorem disposeCell_repeats {g : Governing} {c : Cell} {p : Part}
    (h : appliedDisposition p.cab.state g.entry = .pass
      ∨ (appliedDisposition p.cab.state g.entry = .take ∧ ¬ IsAddressed c p)) (lane : Lane)
    (words : List Word) :
    disposeCell g lane words c true p = (setOutcome g lane .valid p, some words) := by
  rcases h with h | ⟨h, ha⟩
  · exact disposeCell_pass _ _ _ _ h
  · exact disposeCell_take_other _ _ _ h ((not_addressed_iff c p).mpr ha)

/-- A valid cell either goes to lane select and pairing or leaves its outcome alone, where no OWN entry governs. -/
theorem disposition_cases {g : Governing} {p : Part} (c : Cell) (hd : g.entry.disposition ≠ .own) :
    (appliedDisposition p.cab.state g.entry = .pass
        ∨ (appliedDisposition p.cab.state g.entry = .take ∧ ¬ IsAddressed c p))
      ∨ (appliedDisposition p.cab.state g.entry = .observe
        ∨ appliedDisposition p.cab.state g.entry = .rewrite
        ∨ (appliedDisposition p.cab.state g.entry = .take ∧ IsAddressed c p)) := by
  have hown := mt (appliedDisposition_own_iff p.cab.state g.entry).mp hd
  cases h : appliedDisposition p.cab.state g.entry
  case own => exact absurd h hown
  all_goals simp [em']

theorem nullCell_tookCell {p : Part} {n : Six} (h : p.line.slotOpen = some n) (lane : Lane) (lines : Lines)
    (errors : Nat) :
    nullCell (tookCell lane lines errors p) = makeCell n p.line.counter .null p.node [] := by
  cases lane <;> simp [nullCell, tookCell, withLane, h]

/-- In slot 0 a cell that is no valid beacon is counted and repeated (R14). -/
theorem exec_arrival_slot0 {lane : Lane} {words : List Word} {s : State} (hr : s.part.resetN = true)
    (hs : s.part.line.state = .synchronised) (ho : s.part.line.slotOpen = some 0)
    (hb : beaconCycle words = none) (lines : Lines) (order : List Work) :
    exec (.cellArrival lane words lines order) s =
      .next { s with part := drive lane words (countError lane { s.part with lines := lines }) } := by
  have judged : ∀ c intact, cellArrivalIn lane words c intact { s.part with lines := lines } =
      drive lane words (countError lane { s.part with lines := lines }) := fun c intact => by
    simp [cellArrivalIn, judgingSlot, hs, ho]
  rw [exec_cellArrival hr]
  rcases arrive_other hb lane order { s.part with lines := lines } with ⟨c, -, e⟩ | ⟨-, c, e⟩
  · rw [e, judged]
  · rw [e, judged]

/-- A cell that meets `ArrivesValid` is disposed of under its governing entry. -/
theorem exec_arrivesValid {lane : Lane} {words : List Word} {c : Cell} {g : Governing} {s : State}
    (hr : s.part.resetN = true) (h : ArrivesValid lane words c g s.part) (lines : Lines)
    (order : List Work) :
    exec (.cellArrival lane words lines order) s = .next { s with
      part := driveOut lane (disposeCell g lane words c true
        (tookCell lane lines (laneOf s.part.line lane).errors s.part)) } := by
  obtain ⟨hs, hi, hk, hn, ho, hcycle, hh, hg⟩ := h
  rw [exec_arrival_valid hr hs ho hn hi hk rfl hcycle hh,
    handOver_governed (p := tookCell lane lines _ s.part) hg]

/-- Settles O15: the disposition's own lemma in each case, and for REWRITE the copy of `rewritten`. -/
theorem outgoingCellFollowsDisposition : Obligations.OutgoingCellFollowsDisposition := by
  refine ⟨fun g lane words c valid p => ⟨fun h => ?_, fun h => ?_, fun h => ⟨fun hv => ?_, fun hv ha => ?_,
    fun hv ha => ?_⟩, fun h => ⟨fun hv => ?_, fun hv hi => ⟨fun hlen => ?_, fun z hlen hz => ?_⟩⟩⟩,
    fun lane words lines order s n hr hs ho hb => ?_⟩
  · rcases h with h | h
    · rw [disposeCell_pass _ _ _ _ h]
    · rw [disposeCell_observe _ _ _ _ h]
  · rw [disposeCell_own _ _ _ _ h]
  · subst hv
    rw [disposeCell_replaced _ _ _ (.inl h)]
    rfl
  · subst hv
    rw [disposeCell_take_addressed _ _ _ h ((addressed_iff c p).mpr ha)]
    rfl
  · subst hv
    rw [disposeCell_take_other _ _ _ h ((not_addressed_iff c p).mpr ha)]
  · subst hv
    rw [disposeCell_replaced _ _ _ (.inr h)]
    rfl
  · subst hv
    rw [disposeCell_rewrite _ _ _ h, rewritten_short hi hlen]
  · subst hv
    have hzone : zoneOf c = z := Fin.ext (by simp [zoneOf, bitsOf, hz])
    rw [disposeCell_rewrite _ _ _ h, hzone]
    obtain ⟨c', hc', hslot, hcycle, hkind, hnode, hlength, hpayload⟩ := rewritten_intact hi hlen
      (acknowledge (observeCell g lane c (setOutcome g lane .valid p)) z)
    exact ⟨_, c', rfl, hc', hslot, hcycle, hkind, hnode, hlength, hpayload⟩
  · refine ⟨fun hn => exec_arrival_slot0 hr hs (by rw [ho, hn]) hb lines order,
      fun hn hg => ⟨fun hv => ?_, fun hv => ?_⟩, fun g hn hg hv => ⟨fun h => ?_, fun h => ?_⟩,
      fun g c hc hd => ⟨?_, fun h => ?_, fun h hsel hm hk => ?_⟩⟩
    · obtain ⟨c, hi, hk, hslot, hcycle, hh⟩ := hv
      have hslot' : c.slot = n := by simpa [ho] using hslot.symm
      rw [exec_arrival_valid hr hs ho hn hi hk hslot' hcycle hh,
        handOver_ungoverned (p := tookCell lane lines _ s.part) hg]
      rfl
    · obtain ⟨c, e⟩ := exec_arrival_invalid hr hs ho hn hb hv lines order
      rw [e, handOver_ungoverned (p := tookCell lane lines _ s.part) hg]
      rfl
    · obtain ⟨c, e⟩ := exec_arrival_invalid hr hs ho hn hb hv lines order
      rw [e, handOver_governed (p := tookCell lane lines _ s.part) hg]
      rcases h with h | h
      · rw [disposeCell_pass (p := tookCell lane lines _ s.part) _ _ _ _ h]
        rfl
      · rw [disposeCell_observe (p := tookCell lane lines _ s.part) _ _ _ _ h]
        rfl
    · obtain ⟨c, e⟩ := exec_arrival_invalid hr hs ho hn hb hv lines order
      rw [e, handOver_governed (p := tookCell lane lines _ s.part) hg,
        disposeCell_replaced (p := tookCell lane lines _ s.part) _ _ _ h, nullCell_tookCell ho]
      rfl
    · rw [exec_arrivesValid hr hc]
      rcases disposition_cases (p := s.part) c hd with h | h
      · rw [disposeCell_repeats (p := tookCell lane lines _ s.part) h]
        exact ⟨words, rfl, rfl⟩
      · obtain ⟨out, e, -⟩ := disposeCell_observes (p := tookCell lane lines _ s.part) h lane words
        rw [e]
        exact ⟨out, rfl, rfl⟩
    · by_cases hrep : appliedDisposition s.part.cab.state g.entry = .pass
          ∨ (appliedDisposition s.part.cab.state g.entry = .take ∧ ¬ IsAddressed c s.part)
      · rw [disposeCell_repeats (p := tookCell lane lines _ s.part) hrep]
        rfl
      · have hobs := (disposition_cases c hd).resolve_left hrep
        have hsel := (or_assoc.mpr h).resolve_left hrep
        obtain ⟨out, e, -⟩ := disposeCell_observes (p := tookCell lane lines _ s.part) hobs lane words
        rw [e, observeCell_passed_over hsel]
        rfl
    · obtain ⟨out, e, -⟩ := disposeCell_observes (p := tookCell lane lines _ s.part)
        (h.imp_right .inl) lane words
      rw [e, observeCell_first_null (p := setOutcome g lane .valid (tookCell lane lines _ s.part))
        hsel hm hk]
      rw [markOf, hk]
      rfl

/-- Settles O18: the second copy is compared with the mark, and the disposition gives the outgoing cell. -/
theorem secondCopyIsCompared : Obligations.SecondCopyIsCompared := by
  refine ⟨fun g lane c p first hsel hm => ⟨fun h => ?_, fun h => ?_⟩,
    fun lane words lines order s c g first hr hc hsel hm hd => ?_⟩
  · rw [← eq_markOf_iff] at h
    exact observeCell_agrees hsel (by rw [hm, h]) lane
  · rw [← eq_markOf_iff] at h
    exact observeCell_disagrees hsel hm h lane
  · intro agrees record judged
    obtain ⟨-, hi, -, -, ho, -⟩ := id hc
    obtain ⟨out, e, hobserve, htake, hrewrite⟩ := disposeCell_observes (p := judged) hd lane words
    have hpair : observeCell g lane c (setOutcome g lane .valid judged) =
        if agrees then putRecord g.index record judged
        else setFlag .laneDisagree (putRecord g.index { record with laneDisagree := true } judged) := by
      split
      · next h =>
        have hm' : (setOutcome g lane .valid judged).slots.mark = some (markOf c) := by
          rw [← (eq_markOf_iff first c).mpr h]
          exact hm
        rw [observeCell_agrees hsel hm']
        rfl
      · next h =>
        rw [observeCell_disagrees (p := setOutcome g lane .valid judged) hsel hm
          (mt (eq_markOf_iff first c).mp h)]
        simp [disagree, setOutcome]
        rfl
    have hack : acknowledge (observeCell g lane c (setOutcome g lane .valid judged)) (zoneOf c) =
        acknowledge s.part (zoneOf c) := by
      rw [hpair]
      split <;> rfl
    rw [hpair] at e
    refine ⟨out, fun h => ?_, fun h => ?_, hobserve, fun h => ?_, fun h => ⟨fun hlen => ?_, fun hlen => ?_⟩⟩
    · rw [exec_arrivesValid hr hc, e, if_pos h]
      rfl
    · rw [exec_arrivesValid hr hc, e, if_neg h]
      rfl
    · rw [htake h, nullCell_tookCell ho]
    · rw [hrewrite h, rewritten_short hi hlen]
    · rw [hrewrite h, wordAt_rewritten hi hlen, hack]

/-! ### A store (R32) -/

/-- What a store leaves: the record as R32 has it, on the outcome that the cell has been given, and one store
more. -/
theorem storeCell_setOutcome (g : Governing) (lane : Lane) (c : Cell) (mark : Option PairingMark) (p : Part) :
    storeCell g lane c { setOutcome g lane .valid p with
      slots := { (setOutcome g lane .valid p).slots with mark := mark } } =
    deliver g.index g.entry.fn c.kind
      (storedRecord g.entry.len lane p.line.counter (p.slots.stores + 1) c
        (withOutcome lane .valid (recordAt p g.index)))
      (putRecord g.index
        (storedRecord g.entry.len lane p.line.counter (p.slots.stores + 1) c
          (withOutcome lane .valid (recordAt p g.index)))
        { p with slots := { p.slots with stores := p.slots.stores + 1, mark := mark } }) := by
  simp [storeCell, setOutcome, putRecord, recordAt]

theorem handleOf_le_iff (w : Word) : handleOf w ≤ -900 ↔ w.toInt ≤ -900 := by
  unfold handleOf clampHandle
  omega

/-- A store into the HANDLE record: the range flag (R80), and the end of BRAKE_TEST (R53). -/
theorem deliver_handle (i : Fin 82) (kind : Kind) (r : SlotRecord) (p : Part) :
    deliver i .handle kind r p = { p with
      mgmt := { p.mgmt with
        flags := if (wordAt r.payload 0).toInt < -1000 ∨ 1000 < (wordAt r.payload 0).toInt then
          withFlag p.mgmt.flags .handleRange else p.mgmt.flags }
      cab := if p.cab.state = .activating ∧ p.cab.stage = .brakeTest ∧ (wordAt r.payload 0).toInt ≤ -900
        then { p.cab with stage := .speedLock, count := 0 } else p.cab } := by
  have hrange : handleRange r p = { p with mgmt := { p.mgmt with
      flags := if (wordAt r.payload 0).toInt < -1000 ∨ 1000 < (wordAt r.payload 0).toInt then
        withFlag p.mgmt.flags .handleRange else p.mgmt.flags } } := by
    simp [handleRange, setFlagIf]
  simp only [deliver, hrange, brakeTestStore, handleOf_le_iff]
  split <;> rfl

/-- Settles O17: the cell goes through the disposition and the lane select to `storeCell`. -/
theorem firstValidCopyIsStored : Obligations.FirstValidCopyIsStored := by
  intro lane words lines order s c g hr hc hk hst r stored
  obtain ⟨hd, hsel⟩ := hst
  obtain ⟨-, hi, -, -, ho, -⟩ := id hc
  obtain ⟨out, e, hobserve, htake, hrewrite⟩ := disposeCell_observes
    (p := tookCell lane lines (laneOf s.part.line lane).errors s.part) hd lane words
  have hrecord : storedRecord g.entry.len lane s.part.line.counter (s.part.slots.stores + 1) c
      (withOutcome lane .valid (recordAt s.part g.index)) = r := by
    cases lane <;> simp [r, storedRecord, withOutcome, bne, Bool.beq_eq_decide_eq]
  have hstore : observeCell g lane c (setOutcome g lane .valid
      (tookCell lane lines (laneOf s.part.line lane).errors s.part)) =
      deliver g.index g.entry.fn c.kind r stored := by
    have hcounter : (tookCell lane lines (laneOf s.part.line lane).errors s.part).line.counter =
        s.part.line.counter := by cases lane <;> rfl
    rw [observeCell_stores (p := setOutcome g lane .valid (tookCell lane lines _ s.part)) hk hsel,
      storeCell_setOutcome, hcounter, ← hrecord]
    simp only [stored, ← hrecord]
    rfl
  rw [hstore] at e hrewrite
  refine ⟨⟨out, ?_, hobserve, fun h => ?_, fun h hlen => ?_⟩, fun h => ?_, fun h => ?_⟩
  · rw [exec_arrivesValid hr hc, e]
    rfl
  · rw [htake h, nullCell_tookCell ho]
  · rw [hrewrite h, wordAt_rewritten hi hlen]
  · rcases h with h | h <;> rw [h] <;> rfl
  · rw [h, deliver_handle]
    rfl

end Sys2Proof.Machine
end

section
/-! ## The close and the opening of a slot (R10, R34, R36): O11 -/

namespace Sys2Proof.Machine

set_option Elab.async false

/-! ### The close of the open slot -/

theorem outcomeOn_withOutcome (l m : Lane) (o : LaneOutcome) (r : SlotRecord) :
    outcomeOn (withOutcome l o r) m = if m = l then o else outcomeOn r m := by
  cases l <;> cases m <;> rfl

theorem withOutcome_age (l : Lane) (o : LaneOutcome) (r : SlotRecord) : (withOutcome l o r).age = r.age := by
  cases l <;> rfl

/-- The close of a slot makes a lane without a cell SILENT in the governing record alone (R34). -/
theorem recordAt_silentUnlessHanded (g : Governing) (l : Lane) (p : Part) (i : Fin 82) :
    recordAt (silentUnlessHanded g l p) i =
      if g.index = i ∧ (laneOf p.line l).handed = false then withOutcome l .silent (recordAt p i)
      else recordAt p i := by
  unfold silentUnlessHanded setOutcome
  cases (laneOf p.line l).handed with
  | true => simp
  | false =>
    by_cases hi : g.index = i
    · simp [← hi]
    · simp [hi, recordAt_putRecord_ne hi]

theorem silentUnlessHanded_eq (g : Governing) (l : Lane) (p : Part) :
    silentUnlessHanded g l p =
      { p with slots := { p.slots with records := (silentUnlessHanded g l p).slots.records } } := by
  unfold silentUnlessHanded
  split <;> rfl

/-- The close of a slot changes the records, the open slot and the governing entry, and nothing else. -/
theorem closeSlot_eq (p : Part) :
    closeSlot p = { p with
      line := { p.line with slotOpen := none }
      slots := { p.slots with records := (closeSlot p).slots.records, governing := none } } := by
  unfold closeSlot
  dsimp only
  split
  · rw [silentUnlessHanded_eq, silentUnlessHanded_eq _ .A]
  · rfl

/-- Without a governing entry a close leaves the records as they are. -/
theorem recordAt_closeSlot_ungoverned {p : Part} (h : p.slots.governing = none) (i : Fin 82) :
    recordAt (closeSlot p) i = recordAt p i := by
  simp [closeSlot, h, recordAt]

theorem recordAt_closeSlot_governed {p : Part} {g : Governing} (h : p.slots.governing = some g) (i : Fin 82) :
    recordAt (closeSlot p) i = recordAt (silentUnlessHanded g .B (silentUnlessHanded g .A p)) i := by
  simp [closeSlot, h, recordAt]

theorem outcomeOn_silentUnlessHanded (g : Governing) (l m : Lane) (p : Part) (i : Fin 82) :
    outcomeOn (recordAt (silentUnlessHanded g l p) i) m =
      if g.index = i ∧ (laneOf p.line l).handed = false ∧ m = l then .silent
      else outcomeOn (recordAt p i) m := by
  rw [recordAt_silentUnlessHanded]
  by_cases h : g.index = i ∧ (laneOf p.line l).handed = false
  · simp [h, outcomeOn_withOutcome]
  · rw [if_neg h, if_neg (fun ⟨hi, hh, _⟩ => h ⟨hi, hh⟩)]

/-- The outcomes at a close (R34). -/
theorem outcomeOn_closeSlot (p : Part) (i : Fin 82) (l : Lane) :
    outcomeOn (recordAt (closeSlot p) i) l =
      if (∃ g, p.slots.governing = some g ∧ g.index = i) ∧ (laneOf p.line l).handed = false then .silent
      else outcomeOn (recordAt p i) l := by
  cases h : p.slots.governing with
  | none => simp [recordAt_closeSlot_ungoverned h]
  | some g =>
    rw [recordAt_closeSlot_governed h, outcomeOn_silentUnlessHanded, outcomeOn_silentUnlessHanded]
    cases l <;> simp

theorem age_closeSlot (p : Part) (i : Fin 82) : (recordAt (closeSlot p) i).age = (recordAt p i).age := by
  cases h : p.slots.governing with
  | none => rw [recordAt_closeSlot_ungoverned h]
  | some g =>
    rw [recordAt_closeSlot_governed h, recordAt_silentUnlessHanded, recordAt_silentUnlessHanded]
    split <;> split <;> simp [withOutcome_age]

/-! ### The emission of an opening -/

/-- From `p` to `q` an opening has at most sent: the line, the pairing mark, the governing entry and the
outcomes stand, and the blocks but the junction and management units. -/
structure SendingFrame (p q : Part) : Prop where
  line : q.line = p.line
  mark : q.slots.mark = p.slots.mark
  governing : q.slots.governing = p.slots.governing
  outcomes : ∀ i l, outcomeOn (recordAt q i) l = outcomeOn (recordAt p i) l
  cab : q.cab = p.cab
  caps : q.caps = p.caps
  traction : q.traction = p.traction
  stop : q.stop = p.stop
  sound : q.sound = p.sound
  tables : q.tables = p.tables

namespace SendingFrame

theorem refl (p : Part) : SendingFrame p p := ⟨rfl, rfl, rfl, fun _ _ => rfl, rfl, rfl, rfl, rfl, rfl, rfl⟩

theorem trans {p q r : Part} (a : SendingFrame p q) (b : SendingFrame q r) : SendingFrame p r where
  line := b.line.trans a.line
  mark := b.mark.trans a.mark
  governing := b.governing.trans a.governing
  outcomes i l := (b.outcomes i l).trans (a.outcomes i l)
  cab := b.cab.trans a.cab
  caps := b.caps.trans a.caps
  traction := b.traction.trans a.traction
  stop := b.stop.trans a.stop
  sound := b.sound.trans a.sound
  tables := b.tables.trans a.tables

end SendingFrame

theorem markSent_sendingFrame (g : Governing) (ws : List Word) (p : Part) :
    SendingFrame p (markSent g ws p) := by
  refine ⟨rfl, rfl, rfl, fun i l => ?_, rfl, rfl, rfl, rfl, rfl, rfl⟩
  unfold markSent
  by_cases hi : g.index = i
  · subst hi
    rw [recordAt_putRecord_self]
    cases l <;> rfl
  · rw [recordAt_putRecord_ne hi]

theorem drive_sendingFrame (l : Lane) (cell : List Word) (p : Part) : SendingFrame p (drive l cell p) := by
  cases l <;> exact ⟨rfl, rfl, rfl, fun _ _ => rfl, rfl, rfl, rfl, rfl, rfl, rfl⟩

theorem driveIfUp_sendingFrame (l : Lane) (cell : List Word) (p : Part) :
    SendingFrame p (driveIfUp l cell p) := by
  unfold driveIfUp
  split
  · exact drive_sendingFrame l cell p
  · exact .refl p

/-- A record that replaces one of the same state leaves the junction fault condition (R112). -/
theorem anyFault_set {list : Vector (Option JunctionRecord) 4} {pos : Fin 4} {r r' : JunctionRecord}
    (hr : list[pos] = some r) (h : inFault r' = inFault r) :
    anyFault (list.set pos (some r')) = anyFault list := by
  unfold anyFault
  congr 1
  funext i
  by_cases hi : pos = i
  · subst hi
    simp [hr, h]
  · simp [Fin.val_ne_of_ne hi]

theorem giveSet_sendingFrame (pos : Fin 4) (p : Part) : SendingFrame p (giveSet pos p).1 := by
  unfold giveSet
  split
  · exact .refl p
  · next r hr =>
    have hf : anyFault (p.junction.list.set pos (some { r with setSent := true })) =
        anyFault p.junction.list := anyFault_set hr rfl
    refine ⟨rfl, rfl, rfl, fun _ _ => rfl, rfl, rfl, rfl, rfl, ?_, rfl⟩
    simp [putOpen, withList, faultCondition, hf]

theorem nextItem_sendingFrame (p : Part) : SendingFrame p (nextItem p).1 := by
  unfold nextItem
  split
  · exact ⟨rfl, rfl, rfl, fun _ _ => rfl, rfl, rfl, rfl, rfl, rfl, rfl⟩
  · split
    · exact giveSet_sendingFrame _ p
    · exact .refl p

theorem takeResponse_sendingFrame (p : Part) : SendingFrame p (takeResponse p).1 := by
  unfold takeResponse
  split
  · exact ⟨rfl, rfl, rfl, fun _ _ => rfl, rfl, rfl, rfl, rfl, rfl, rfl⟩
  · exact .refl p

theorem itemSent_sendingFrame (g : Governing) {p : Part} {x : Part × Option (List Word)}
    (h : SendingFrame p x.1) : SendingFrame p (itemSent g x).1 := by
  unfold itemSent
  split
  · exact h.trans (markSent_sendingFrame _ _ _)
  · exact h

theorem standing_sendingFrame (g : Governing) (ws : List Word) (p : Part) :
    SendingFrame p (standing g ws p).1 := by
  unfold standing
  dsimp only
  split
  · exact .refl p
  · exact markSent_sendingFrame _ _ p

theorem emission_sendingFrame (g : Governing) (p : Part) : SendingFrame p (emission g p).1 := by
  unfold emission
  split
  · exact .refl p
  · cases g.entry.fn with
    | demandOut | cabStatusOut | signOut | doorOut | chimeOut => exact standing_sendingFrame g _ p
    | pointRequestOut => exact itemSent_sendingFrame g (nextItem_sendingFrame p)
    | mgmtOut => exact itemSent_sendingFrame g (takeResponse_sendingFrame p)
    | _ => exact .refl p

theorem emitOwned_sendingFrame (slot : Six) (g : Governing) (p : Part) :
    SendingFrame p (emitOwned slot g p) := by
  unfold emitOwned
  split
  · exact .refl p
  · exact (emission_sendingFrame g p).trans
      ((driveIfUp_sendingFrame .A _ _).trans (driveIfUp_sendingFrame .B _ _))

theorem openSlot_sendingFrame (slot : Six) (p : Part) :
    SendingFrame (newOpening slot (openingEntry slot p) p) (openSlot slot p) := by
  rcases openSlot_eq slot p with h | ⟨g, h⟩
  · rw [h]
    exact .refl _
  · rw [h]
    exact emitOwned_sendingFrame slot g _

theorem six_succ_ne_zero {n : Six} (h : n ≠ 63) : n + 1 ≠ 0 := by
  intro e
  exact h (by bv_omega)

/-- Settles O11: the close of the one slot, then the opening of the next. -/
theorem slotTimerOpensNextSlot : Obligations.SlotTimerOpensNextSlot := by
  intro s
  generalize hp : s.part = p
  refine ⟨fun n hs hn h63 => ?_, fun h => ?_⟩
  · have hnext : nextSlot p = some (n + 1) := by
      rw [nextSlot, if_pos hs, hn]
      exact if_neg h63
    have hg : openingEntry (n + 1) (closeSlot p) = governingAt (n + 1) p := by
      rw [openingEntry, if_neg (six_succ_ne_zero h63), closeSlot_eq]
      rfl
    obtain ⟨line, mark, governing, outcomes, cab, caps, traction, stop, sound, tables⟩ :=
      openSlot_sendingFrame (n + 1) (closeSlot p)
    rw [hg] at line mark governing outcomes cab caps traction stop sound tables
    have closed := closeSlot_eq p
    refine ⟨openSlot (n + 1) (closeSlot p), ?_, ?_, ?_, ?_, mark, governing, fun l => ?_, fun i l => ?_, ?_, ?_,
      ?_, ?_, ?_, ?_⟩
    · show Host.Outcome.next { s with part := slotTimer s.part } = _
      rw [hp, slotTimer, hnext]
    · rw [line]
      rfl
    · rw [line, closed]
      rfl
    · rw [line, closed]
      exact hs
    · rw [line, closed]
      cases l <;> rfl
    · rw [outcomes, ← outcomeOn_closeSlot]
      rfl
    · rw [cab, closed]; rfl
    · rw [caps, closed]; rfl
    · rw [traction, closed]; rfl
    · rw [stop, closed]; rfl
    · rw [sound, closed]; rfl
    · rw [tables, closed]; rfl
  · have hnext : nextSlot p = none := by
      unfold nextSlot
      rcases h with h | h | h <;> simp [h]
    show Host.Outcome.next { s with part := slotTimer s.part } = _
    rw [hp, slotTimer, hnext, ← hp]

end Sys2Proof.Machine
end

section
/-! ## The end of a cycle (R3, R7) -/

namespace Sys2Proof.Machine

set_option Elab.async false

/-! ### The lanes at the end of a cycle -/

theorem countRuns_up (x : LaneState) : (countRuns x).up = x.up := by
  unfold countRuns
  split <;> rfl

/-- No credit outlives its cycle (R3, R7). -/
theorem countRuns_credit (x : LaneState) : (countRuns x).credit = false := by
  cases h : x.credit <;> simp [countRuns, h]

theorem settled_credit (x : LaneState) : (settleLane true true (countRuns x)).credit = false :=
  countRuns_credit x

theorem lossChange_lost_iff (p q : Part) :
    lossChange p q = some .lost ↔ lineLost p = false ∧ lineLost q = true := by
  cases hp : lineLost p <;> cases hq : lineLost q <;> simp [lossChange, hp, hq]

theorem lossChange_ended_iff (p q : Part) :
    lossChange p q = some .ended ↔ lineLost p = true ∧ lineLost q = false := by
  cases hp : lineLost p <;> cases hq : lineLost q <;> simp [lossChange, hp, hq]

/-- LANE_DEGRADED is due where one lane went DOWN and a lane is UP, which is then the other (R18). -/
theorem degradedBy_iff (a b : LineInterface) :
    degradedBy a b = true ↔
      ∃ l m, (laneOf a l).up = true ∧ (laneOf b l).up = false ∧ (laneOf b m).up = true := by
  constructor
  · intro h
    simp only [degradedBy, wentDown, Bool.or_eq_true, Bool.and_eq_true, Bool.not_eq_true'] at h
    rcases h with ⟨⟨before, after⟩, other⟩ | ⟨⟨before, after⟩, other⟩
    · exact ⟨.A, .B, before, after, other⟩
    · exact ⟨.B, .A, before, after, other⟩
  · intro ⟨l, m, before, after, other⟩
    have hne : l ≠ m := by
      rintro rfl
      simp [after] at other
    simp [degradedBy_of_ne hne, wentDown, before, after, other]

theorem hasFlag_setFlagIf (c : Bool) (f g : Flag) (p : Part) :
    hasFlag (setFlagIf c f p).mgmt.flags g = true ↔
      hasFlag p.mgmt.flags g = true ∨ (g = f ∧ c = true) := by
  cases c with
  | false => simp
  | true => simp [eq_comm (a := f)]

/-! ### The lanes decided -/

theorem settleLanes_line (down up : Bool) (p : Part) :
    (settleLanes down up p).line = { p.line with
      laneA := settleLane down up p.line.laneA
      laneB := settleLane down up p.line.laneB } := by
  simp [settleLanes]

/-- Deciding the lanes sets LANE_DEGRADED and LINE_LOST (R18). -/
theorem hasFlag_settleLanes (down up : Bool) (p : Part) (f : Flag) :
    hasFlag (settleLanes down up p).mgmt.flags f = true ↔ hasFlag p.mgmt.flags f = true
      ∨ (f = .laneDegraded ∧ degradedBy p.line (settleLanes down up p).line = true)
      ∨ (f = .lineLost ∧ lossChange p (settleLanes down up p) = some .lost) := by
  rw [lossChange_lost_iff, lineLost, lineLost, settleLanes_line]
  unfold settleLanes
  rw [hasFlag_setFlagIf, hasFlag_setFlagIf, or_assoc, beq_iff_eq, lossChange_lost_iff]
  rfl

/-- Deciding the lanes changes the line and the flags alone. -/
theorem settleLanes_eq (down up : Bool) (p : Part) :
    settleLanes down up p = { p with
      line := (settleLanes down up p).line
      mgmt := { p.mgmt with flags := (settleLanes down up p).mgmt.flags } } := by
  unfold settleLanes
  dsimp only
  cases (lossChange p _ == some .lost) <;> cases (degradedBy p.line _) <;> rfl

/-! ### What the end of a cycle leaves -/

/-- The open slot closed and the lanes' runs counted: what the lanes are decided on (R3, R7). -/
def counted (p : Part) : Part :=
  { closeSlot p with line := { (closeSlot p).line with
    laneA := countRuns (closeSlot p).line.laneA
    laneB := countRuns (closeSlot p).line.laneB } }

theorem endCycle_counted (p : Part) : endCycle p = settleLanes true true (counted p) := rfl

theorem counted_up (p : Part) (l : Lane) : (laneOf (counted p).line l).up = (laneOf p.line l).up := by
  rw [counted, closeSlot_line]
  cases l <;> exact countRuns_up _

theorem counted_mgmt (p : Part) : (counted p).mgmt = p.mgmt := by
  rw [counted, closeSlot_eq]

/-- The end of a cycle changes the line, the slot engine and the flags alone. -/
theorem endCycle_eq (p : Part) :
    endCycle p = { p with
      line := (endCycle p).line
      slots := (closeSlot p).slots
      mgmt := { p.mgmt with flags := (endCycle p).mgmt.flags } } := by
  rw [endCycle_counted, settleLanes_eq, counted, closeSlot_eq]

theorem laneOf_endCycle (p : Part) (l : Lane) :
    laneOf (endCycle p).line l = settleLane true true (countRuns (laneOf p.line l)) := by
  rw [endCycle_line]
  cases l <;> rfl

/-- The sticky flags at the end of a cycle (R18). -/
theorem hasFlag_endCycle (p : Part) (f : Flag) :
    hasFlag (endCycle p).mgmt.flags f = true ↔ hasFlag p.mgmt.flags f = true
      ∨ (f = .laneDegraded ∧ ∃ l m, (laneOf p.line l).up = true
          ∧ (laneOf (endCycle p).line l).up = false ∧ (laneOf (endCycle p).line m).up = true)
      ∨ (f = .lineLost ∧ lossChange p (endCycle p) = some .lost) := by
  have hlost : lineLost (counted p) = lineLost p := by
    rw [lineLost_of_ne (l := .A) (m := .B) (by decide), counted_up, counted_up]
    rfl
  rw [endCycle_counted, hasFlag_settleLanes, counted_mgmt, degradedBy_iff, lossChange_lost_iff,
    lossChange_lost_iff, hlost]
  simp only [counted_up]

end Sys2Proof.Machine
end

section
/-! ## A cycle start presented to the blocks (R9, R33) -/

namespace Sys2Proof.Machine

set_option Elab.async false

/-! ### The table store's work -/

theorem sampleDepot_storeFrame (p : Part) : StoreFrame p (sampleDepot p) := .update

theorem respond_slip (tag code : Byte) (x : Result) (ws : List Word) (p : Part) :
    hasFlag (respond tag code x ws p).mgmt.flags .cycleSlip = hasFlag p.mgmt.flags .cycleSlip := by
  unfold respond
  split
  · rfl
  · simp

theorem presentChange_slip (t : TableId) (i : Nat) (p : Part) :
    hasFlag (presentChange t i p).mgmt.flags .cycleSlip = hasFlag p.mgmt.flags .cycleSlip := by
  cases t with
  | slot =>
    unfold presentChange clearEntryRecord
    dsimp only
    split <;> rfl
  | param =>
    exact (testDoors_storeFrame _).slip
  | _ => rfl

theorem completeTransfer_slip (p : Part) :
    hasFlag (completeTransfer p).mgmt.flags .cycleSlip = hasFlag p.mgmt.flags .cycleSlip := by
  unfold completeTransfer
  split
  · rfl
  · show hasFlag (completeOne _ p).mgmt.flags .cycleSlip = _
    unfold completeOne
    split
    · exact respond_slip _ _ _ _ _
    · rw [respond_slip]
      exact (tableChanged_storeFrame _ _).slip.trans (presentChange_slip _ _ _)

/-- No block sets or clears CYCLE_SLIP at a cycle start. -/
theorem doWork_slip (cs : CycleStart) (w : Work) (p : Part) :
    hasFlag (doWork cs w p).mgmt.flags .cycleSlip = hasFlag p.mgmt.flags .cycleSlip := by
  by_cases h : w = .tableStore
  · subst h
    exact (completeTransfer_slip _).trans (sampleDepot_storeFrame p).slip
  · exact (doWork_storeFrame cs h p).slip

theorem presentCycle_slip (loss : Option LossChange) (order : List Work) (p : Part) :
    hasFlag (presentCycle loss order p).mgmt.flags .cycleSlip = hasFlag p.mgmt.flags .cycleSlip :=
  presentCycle_keeps (fun q => hasFlag q.mgmt.flags .cycleSlip = hasFlag p.mgmt.flags .cycleSlip) loss order p rfl
    (fun cs w q h => (doWork_slip cs w q).trans h)

/-! ### The records at a cycle start -/

/-- A completion for another table than SLOT leaves the records (R168). -/
theorem tableStoreCycle_slots {p : Part} (h : ∀ x, outstanding p.tables = some x → x.table ≠ .slot) :
    (tableStoreCycle p).slots = p.slots := by
  have ho : outstanding (sampleDepot p).tables = outstanding p.tables := rfl
  unfold tableStoreCycle completeTransfer
  rw [ho]
  split
  · rfl
  · next x hx =>
    show (completeOne x (sampleDepot p)).slots = _
    unfold completeOne
    split
    · exact respond_slots _ _ _ _ _
    · rw [respond_slots]
      exact (commit_storeFrame (h x hx) _ _ _).slots

theorem works_storeFrame (cs : CycleStart) {ws : List Work} (h : .tableStore ∉ ws) (p : Part) :
    StoreFrame p (ws.foldl (fun q w => doWork cs w q) p) := by
  induction ws generalizing p with
  | nil => exact .refl p
  | cons w ws ih =>
    rw [List.mem_cons, not_or] at h
    exact (doWork_storeFrame cs (Ne.symm h.1) p).trans (ih h.2 _)

/-- Each work taken once, the records stand where no transfer to SLOT is outstanding. -/
theorem works_slots (cs : CycleStart) {ws : List Work} (hn : ws.Nodup) {p : Part}
    (h : ∀ x, outstanding p.tables = some x → x.table ≠ .slot) :
    (ws.foldl (fun q w => doWork cs w q) p).slots = p.slots := by
  induction ws generalizing p with
  | nil => rfl
  | cons w ws ih =>
    obtain ⟨hw, hn⟩ := List.nodup_cons.mp hn
    by_cases ht : w = .tableStore
    · subst ht
      exact (works_storeFrame cs hw _).slots.trans (tableStoreCycle_slots h)
    · have frame := doWork_storeFrame cs ht p
      have ho : outstanding (doWork cs w p).tables = outstanding p.tables := by
        rw [outstanding, outstanding, frame.staging]
      exact (ih hn (by rwa [ho])).trans frame.slots

theorem recordAt_ageAll (p : Part) (i : Fin 82) :
    recordAt (ageAll p) i = { recordAt p i with age := min 255 ((recordAt p i).age + 1) } := by
  simp [recordAt, ageAll, ageSteps, ageRecords, mapVec]

theorem age_presentCycle (loss : Option LossChange) (order : List Work) {p : Part}
    (h : ∀ x, outstanding p.tables = some x → x.table ≠ .slot) (i : Fin 82) :
    (recordAt (presentCycle loss order p) i).age = min 255 ((recordAt p i).age + 1) := by
  have aged : (recordAt (ageAll p) i).age = min 255 ((recordAt p i).age + 1) := by rw [recordAt_ageAll]
  rw [← aged]
  unfold presentCycle recordAt
  rw [works_slots _ (schedule_complete order).1 (p := ageAll p) h]

/-- A cycle start is presented as its rule says (R9). -/
theorem presentCycle_presented (loss : Option LossChange) (order : List Work) (p : Part) :
    CyclePresented loss order p (presentCycle loss order p) :=
  ⟨ageAll p, schedule order, rfl, recordAt_ageAll p, (schedule_complete order).1, (schedule_complete order).2,
    schedule_follows order, rfl⟩

end Sys2Proof.Machine
end

section
/-! ## Cycle starts (O8, O10) -/

namespace Sys2Proof.Machine

set_option Elab.async false

/-! ### The part that a cycle start presents -/

theorem closeSlot_withLines (lines : Lines) (p : Part) :
    closeSlot (withLines lines p) = withLines lines (closeSlot p) := by
  have silent : ∀ g l q, silentUnlessHanded g l (withLines lines q) =
      withLines lines (silentUnlessHanded g l q) := fun g l q => by
    unfold silentUnlessHanded
    rw [apply_ite (withLines lines)]
    rfl
  cases h : p.slots.governing with
  | none =>
    have h' : (withLines lines p).slots.governing = none := h
    simp only [closeSlot, h, h']
    rfl
  | some g =>
    have h' : (withLines lines p).slots.governing = some g := h
    simp only [closeSlot, h, h', silent]
    rfl

/-- The part that a beacon-driven cycle start presents (R3). -/
def begunByBeacon (lane : Lane) (cycle : Six) (p : Part) : Part :=
  takeBeacon lane cycle (setFlagIf (slips cycle p) .cycleSlip (endCycle p))

/-- The part that a substitute cycle start presents (R7). -/
def begunByTimer (p : Part) : Part :=
  { endCycle p with line := { (endCycle p).line with
    counter := (endCycle p).line.counter + 1
    state := .freeRunning
    timerArmed := true } }

theorem substituteStart_eq (order : List Work) (p : Part) :
    substituteStart order p = presentCycle (lossChange p (endCycle p)) order (begunByTimer p) := rfl

/-- Slot 0 opens with no governing entry and nothing to send (R10). -/
theorem openSlot_zero (p : Part) : openSlot 0 p = newOpening 0 none p := by
  simp [openSlot, newOpening]

/-- A beacon that begins a new cycle makes a beacon-driven cycle start (R3, R4). -/
theorem beaconArrival_begins {lane : Lane} {cycle : Six} {p : Part} (h : BeginsCycle lane cycle p)
    (order : List Work) : beaconArrival lane cycle order p = beaconStart lane cycle order p := by
  unfold beaconArrival classifyBeacon
  rcases h with h | ⟨hc, h | h⟩
  · simp [h]
  · simp [hc, h]
  · simp only [if_neg hc, if_neg h, ite_self]

theorem laneOf_begunByBeacon (lane : Lane) (cycle : Six) (p : Part) (l : Lane) :
    laneOf (begunByBeacon lane cycle p).line l =
      { (settleLane true true (countRuns (laneOf p.line l))) with
        credit := decide (l = lane)
        handed := false } := by
  have hl := laneOf_endCycle p l
  have hc := settled_credit (laneOf p.line l)
  rw [← hl] at hc ⊢
  unfold begunByBeacon takeBeacon
  rw [openSlot_zero]
  simp only [newOpening, setFlagIf_line]
  cases l <;> cases lane <;> simp_all [laneOf, withLane]

theorem begunByBeacon_eq (lane : Lane) (cycle : Six) (p : Part) :
    begunByBeacon lane cycle p = { p with
      line := (begunByBeacon lane cycle p).line
      slots := { (closeSlot p).slots with mark := none, governing := none }
      mgmt := { p.mgmt with flags := (begunByBeacon lane cycle p).mgmt.flags } } := by
  unfold begunByBeacon takeBeacon
  rw [openSlot_zero, endCycle_eq]
  cases slips cycle p <;> rfl

theorem begunByTimer_eq (p : Part) :
    begunByTimer p = { p with
      line := (begunByTimer p).line
      slots := { (closeSlot p).slots with governing := none }
      mgmt := { p.mgmt with flags := (begunByTimer p).mgmt.flags } } := by
  unfold begunByTimer
  rw [endCycle_eq, closeSlot_eq]

theorem lineLost_of_up {p q : Part} (h : ∀ l, (laneOf q.line l).up = (laneOf p.line l).up) :
    lineLost q = lineLost p := by
  rw [lineLost_of_ne (l := .A) (m := .B) (by decide), lineLost_of_ne (l := .A) (m := .B) (by decide), h, h]

theorem lineLost_begunByBeacon (lane : Lane) (cycle : Six) (p : Part) :
    lineLost (begunByBeacon lane cycle p) = lineLost (endCycle p) :=
  lineLost_of_up fun l => by rw [laneOf_begunByBeacon, laneOf_endCycle]

theorem recordAt_begunByBeacon (lane : Lane) (cycle : Six) (p : Part) (i : Fin 82) :
    recordAt (begunByBeacon lane cycle p) i = recordAt (closeSlot p) i := by
  rw [begunByBeacon_eq]
  rfl

theorem recordAt_begunByTimer (p : Part) (i : Fin 82) :
    recordAt (begunByTimer p) i = recordAt (closeSlot p) i := by
  rw [begunByTimer_eq]
  rfl

/-- The state, the counter, the timer and the open slot after a beacon (R3, R10). -/
theorem line_begunByBeacon (lane : Lane) (cycle : Six) (p : Part) :
    (begunByBeacon lane cycle p).line.counter = cycle
      ∧ (begunByBeacon lane cycle p).line.state = .synchronised
      ∧ (begunByBeacon lane cycle p).line.timerArmed = true
      ∧ (begunByBeacon lane cycle p).line.slotOpen = some 0 := by
  unfold begunByBeacon takeBeacon
  rw [openSlot_zero]
  cases lane <;> exact ⟨rfl, rfl, rfl, rfl⟩

/-- The sticky flags after a beacon (R3, R18). -/
theorem hasFlag_begunByBeacon (lane : Lane) (cycle : Six) (p : Part) (f : Flag) :
    hasFlag (begunByBeacon lane cycle p).mgmt.flags f = true ↔ hasFlag p.mgmt.flags f = true
      ∨ (f = .cycleSlip ∧ p.line.state ≠ .unsynchronised ∧ cycle ≠ p.line.counter + 1)
      ∨ (f = .laneDegraded ∧ ∃ l m, (laneOf p.line l).up = true
          ∧ (laneOf (begunByBeacon lane cycle p).line l).up = false
          ∧ (laneOf (begunByBeacon lane cycle p).line m).up = true)
      ∨ (f = .lineLost ∧ lossChange p (endCycle p) = some .lost) := by
  have hm : (begunByBeacon lane cycle p).mgmt = (setFlagIf (slips cycle p) .cycleSlip (endCycle p)).mgmt := by
    unfold begunByBeacon takeBeacon
    rw [openSlot_zero]
    rfl
  have hs : slips cycle p = true ↔ p.line.state ≠ .unsynchronised ∧ cycle ≠ p.line.counter + 1 := by
    simp [slips]
  rw [hm, hasFlag_setFlagIf, hasFlag_endCycle, hs]
  simp only [laneOf_begunByBeacon, laneOf_endCycle]
  exact or_assoc.trans (or_congr_right or_comm)

/-! ### The works (R9) -/

/-- The line's loss fails an activation in progress (R18, R55). -/
theorem presentLoss_lost_activating {p : Part} (h : p.cab.state = .activating) :
    presentLoss (some .lost) p = activationFails .lineLost p.cab.stage p.cab.table p := by
  simp [presentLoss, h]

/-- The end of the loss makes the attempt that waits, outside STABLED (R49). -/
theorem presentLoss_ended_attempt {p : Part} (h : p.cab.state ≠ .stabled) :
    presentLoss (some .ended) p = attemptIfDue p := by
  refine leaveStabledIfDue_of_ne ?_
  unfold attemptIfDue
  split
  · exact attempt_not_stabled h
  · exact h

/-- The end of the loss takes the exit that waits in STABLED (R65). -/
theorem presentLoss_ended_stabled {p : Part} (h : p.cab.state = .stabled) :
    presentLoss (some .ended) p = leaveStabledIfDue p := by
  simp [presentLoss, attemptIfDue, attemptIsDue, h]

theorem tractionCycle_eq {cs : CycleStart} {p sensed q : Part}
    (hs : sensed = { p with
      traction := { p.traction with lowAdh := sampled p.traction.lowAdh p.lines.lowAdh } })
    (htorn : cs.suspended = true ∧ p.traction.suspended = false ∧ p.cab.state ≠ .active → q = sensed)
    (helse : cs.suspended = false ∨ p.traction.suspended = true ∨ p.cab.state = .active →
      q = speedInput sensed) :
    tractionCycle cs p = if cabActs q = true then presentEvaluation (evaluate q) else q := by
  have ht : tornDownFromSlow cs (sampleLowAdh p) = true ↔
      cs.suspended = true ∧ p.traction.suspended = false ∧ p.cab.state ≠ .active := by
    simp [tornDownFromSlow, sampleLowAdh, and_assoc]
  have hq : tractionInputs cs p = q := by
    have hs' : sampleLowAdh p = sensed := hs.symm
    unfold tractionInputs
    by_cases h : cs.suspended = true ∧ p.traction.suspended = false ∧ p.cab.state ≠ .active
    · rw [htorn h, ← hs']
      exact if_pos (ht.mpr h)
    · have h' := h
      rw [not_and_or, not_and_or, Bool.not_eq_true, Bool.not_eq_false, not_not] at h'
      rw [helse h', ← hs']
      exact if_neg (fun hn => h (ht.mp hn))
  rw [← hq]
  rfl

/-- The presentation of the line's loss, and of its end, at a cycle start (R18, R49, R65). -/
theorem lineLoss_is_rule (cs : CycleStart) (s : State) :
    let p := s.part
    doWork cs .lineLoss p = presentLoss cs.loss p
    ∧ presentLoss none p = p
    ∧ (p.cab.state = .activating →
      ActivationEnded [.actFault]
          { cause := .lineLost, stage := p.cab.stage, table := p.cab.table } p
          (presentLoss (some .lost) p)
        ∧ (presentLoss (some .lost) p).line = p.line)
    ∧ (p.cab.state ≠ .activating → presentLoss (some .lost) p = p)
    ∧ (p.cab.state ≠ .stabled →
      exec .activationAttempt s = .next { s with part := presentLoss (some .ended) p })
    ∧ (p.cab.state = .stabled →
      exec .stabledExit s = .next { s with part := presentLoss (some .ended) p }) := by
  refine ⟨rfl, rfl, fun h => ?_, fun h => if_neg h, fun h => ?_, fun h => ?_⟩
  · rw [presentLoss_lost_activating h]
    exact activationFails_ended _ _ _ (.refl _)
  · rw [presentLoss_ended_attempt h]
    rfl
  · rw [presentLoss_ended_stabled h]
    rfl

theorem UnitFrame.sentOn_eq {p q : Part} (f : UnitFrame p q) (l : Lane) : sentOn q l = sentOn p l := by
  cases l
  · exact f.sentA
  · exact f.sentB

/-- Settles O8: the end of the cycle, the part that the beacon leaves, and its presentation; then the works one
by one. -/
theorem beaconStartsCycle : Obligations.BeaconStartsCycle := by
  refine ⟨fun lane words lines order s cycle hr hb hc => ?_, fun cs s => ?_⟩
  · generalize hp : withLines lines s.part = p
    have he : exec (.cellArrival lane words lines order) s = .next { s with
        part := drive lane words
          (presentCycle (lossChange p (endCycle p)) order (begunByBeacon lane cycle p)) } := by
      rw [exec_cellArrival hr, arrive_beacon hb, beaconArrival_begins (p := { s.part with lines := lines }) hc, ← hp]
      rfl
    have frame := presentCycle_unitFrame (lossChange p (endCycle p)) order (begunByBeacon lane cycle p)
    have hbegun := begunByBeacon_eq lane cycle p
    obtain ⟨hcounter, hstate, htimer, hslot⟩ := line_begunByBeacon lane cycle p
    have hclosed : closeSlot p = withLines lines (closeSlot s.part) := by rw [← hp, closeSlot_withLines]
    have hsent : ∀ l, sentOn (presentCycle (lossChange p (endCycle p)) order (begunByBeacon lane cycle p)) l =
        sentOn s.part l := fun l => by
      rw [frame.sentOn_eq, hbegun, ← hp]
      cases l <;> rfl
    refine ⟨lossChange p (endCycle p), begunByBeacon lane cycle p, _, he, presentCycle_presented _ _ _, ?_, ?_, ?_,
      hcounter, hstate, htimer, hslot, fun l => ?_, fun i l => ?_, fun f => ?_, frame.line, ?_,
      presentCycle_slip _ _ _, ?_, fun l hl => ?_, fun ht i => ?_⟩
    · rw [lineLost_begunByBeacon, lossChange_lost_iff, ← hp]
      rfl
    · rw [lineLost_begunByBeacon, lossChange_ended_iff, ← hp]
      rfl
    · conv_lhs => rw [hbegun]
      rw [hclosed, ← hp]
      rfl
    · rw [laneOf_begunByBeacon, ← hp]
      rfl
    · rw [recordAt_begunByBeacon, hclosed]
      exact outcomeOn_closeSlot s.part i l
    · rw [hasFlag_begunByBeacon, ← hp]
      rfl
    · rw [frame.governing, hbegun]
    · rw [sentOn_drive_self, hsent]
    · rw [sentOn_drive_ne (Ne.symm hl), hsent]
    · rw [age_presentCycle _ _ (by rw [hbegun, ← hp]; exact ht), recordAt_begunByBeacon, age_closeSlot, ← hp]
      rfl
  · obtain ⟨hloss, hnone, hlost, hother, hattempt, hexit⟩ := lineLoss_is_rule cs s
    refine ⟨hloss, hnone, hlost, hother, hattempt, hexit, rfl, rfl, fun ha hst => if_pos ⟨ha, hst⟩, fun h => ?_,
      rfl, fun sensed q hs htorn helse => tractionCycle_eq hs htorn helse, rfl, rfl, rfl, rfl⟩
    refine if_neg ?_
    rintro ⟨ha, hst⟩
    rcases h with h | h
    · simp [ha] at h
    · exact h hst

/-! ### The timer's expiry (R6, R7) -/

theorem laneOf_begunByTimer (p : Part) (l : Lane) :
    laneOf (begunByTimer p).line l = laneOf (endCycle p).line l := by
  cases l <;> rfl

theorem timerCanExpire_iff (p : Part) :
    timerCanExpire p = true ↔
      p.line.timerArmed = true ∧ (p.line.state = .synchronised → p.line.slotOpen = some 63) := by
  simp [timerCanExpire, ← imp_iff_not_or]

theorem exec_substitute_blocked {s : State} (h : timerCanExpire s.part = false) (lines : Lines)
    (order : List Work) : exec (.substituteCycleStart lines order) s = .next s := by
  simp [exec, execSubstituteCycleStart, State.onPart, h]

theorem exec_substitute {s : State} (h : timerCanExpire s.part = true) (lines : Lines) (order : List Work) :
    exec (.substituteCycleStart lines order) s =
      .next { s with part := substituteStart order (withLines lines s.part) } := by
  simp [exec, execSubstituteCycleStart, State.onPart, h]

/-- Settles O10: as a beacon's cycle start, with no slot opened and no credit set. -/
theorem timerExpirySubstitutesCycleStart : Obligations.TimerExpirySubstitutesCycleStart := by
  intro lines order s
  refine ⟨fun h => exec_substitute_blocked ?_ _ _, fun harmed h63 => ?_⟩
  · rw [← Bool.not_eq_true, timerCanExpire_iff]
    rintro ⟨harmed, h63⟩
    rcases h with h | ⟨hs, hn⟩
    · simp [h] at harmed
    · exact hn (h63 hs)
  · generalize hp : withLines lines s.part = p
    have frame := presentCycle_unitFrame (lossChange p (endCycle p)) order (begunByTimer p)
    have hbegun := begunByTimer_eq p
    have hclosed : closeSlot p = withLines lines (closeSlot s.part) := by rw [← hp, closeSlot_withLines]
    have hlost : lineLost (begunByTimer p) = lineLost (endCycle p) :=
      lineLost_of_up fun l => by rw [laneOf_begunByTimer]
    have hline := endCycle_line p
    refine ⟨lossChange p (endCycle p), begunByTimer p, _,
      by rw [exec_substitute ((timerCanExpire_iff _).mpr ⟨harmed, h63⟩), hp, substituteStart_eq],
      presentCycle_presented _ _ _, ?_, ?_, ?_, ?_, rfl, rfl, ?_, fun l => ?_, fun i l => ?_, fun f => ?_, frame.line,
      ?_, ?_, ?_, fun ht i => ?_⟩
    · rw [hlost, lossChange_lost_iff, ← hp]
      rfl
    · rw [hlost, lossChange_ended_iff, ← hp]
      rfl
    · conv_lhs => rw [hbegun]
      rw [hclosed, ← hp]
      rfl
    · show (endCycle p).line.counter + 1 = _
      rw [hline, ← hp]
      rfl
    · show (endCycle p).line.slotOpen = none
      rw [hline]
    · rw [laneOf_begunByTimer, laneOf_endCycle, ← settled_credit (laneOf s.part.line l), ← hp]
      rfl
    · rw [recordAt_begunByTimer, hclosed]
      exact outcomeOn_closeSlot s.part i l
    · simp only [laneOf_begunByTimer]
      show hasFlag (endCycle p).mgmt.flags f = true ↔ _
      rw [hasFlag_endCycle, ← hp]
      rfl
    · rw [frame.governing, hbegun]
    · rw [frame.sentA, hbegun, ← hp]
      rfl
    · rw [frame.sentB, hbegun, ← hp]
      rfl
    · rw [age_presentCycle _ _ (by rw [hbegun, ← hp]; exact ht), recordAt_begunByTimer, age_closeSlot, ← hp]
      rfl

end Sys2Proof.Machine
end

section
/-! ## RESTART (O51) -/

namespace Sys2Proof.Machine

set_option Elab.async false

/-- A response into an empty queue is the one that waits (R184). -/
theorem respond_of_empty {p : Part} (h : p.mgmt.queue = []) (tag code : Byte) (x : Result) (ws : List Word) :
    respond tag code x ws p = { p with mgmt := { p.mgmt with
      queue := [{ node := p.node, code := code, tag := tag, result := x, data := padTo 5 ws }] } } := by
  simp [respond, h]

theorem tableAt_restartedTables (ts : TableStore) (t : TableId) :
    tableAt (restartedTables ts) t = restartedTable (tableAt ts t) := by
  cases t <;> rfl

/-- RESTART keeps a table's words and sum, and LOCKED_DOWN (R182). -/
theorem restartedTable_fields (x : Table) :
    (restartedTable x).words = x.words ∧ (restartedTable x).ref = x.ref ∧ (restartedTable x).faulty = false
      ∧ (restartedTable x).lock = if x.lock = .lockedDown then .lockedDown else .locked := by
  refine ⟨rfl, rfl, rfl, ?_⟩
  cases h : x.lock <;> simp [restartedTable, h]

theorem exec_restart {tag : Byte} {s : State} (h : Takes tag s.part) (lines : Lines) :
    exec (.restart tag lines) s = .next { s with part := restartCommand tag lines s.part } := by
  show Host.Outcome.next { s with part := accept tag 16 (restartCommand tag lines) s.part } = _
  rw [accept_of_takes h]

/-- Settles O51: outside INACTIVE and STABLED the refusal; in them the blocks one by one. -/
theorem restartKeepsLineAndTables : Obligations.RestartKeepsLineAndTables := by
  intro s tag lines h
  rw [exec_restart h]
  refine ⟨fun hst => ?_, fun hst => ?_⟩
  · rcases hst with hst | hst | hst <;> simp [restartCommand, hst]
  · have hr : restartCommand tag lines s.part = respond tag 16 .ok [] (restart (withLines lines s.part)) := by
      rcases hst with hst | hst <;> simp [restartCommand, hst]
    rw [hr, respond_of_empty rfl]
    refine ⟨_, rfl, rfl, rfl, rfl, rfl, fun i => ?_, rfl, rfl, rfl, rfl, rfl, rfl, rfl, rfl,
      fun t => ?_, markEnvelope_iff _, rfl, rfl, rfl, rfl, rfl, rfl, rfl, rfl, rfl⟩
    · simp [recordAt, restart, markEnvelope, restartedSlots]
    · have fields := restartedTable_fields (tableAt s.part.tables t)
      rw [← tableAt_restartedTables] at fields
      exact fields

end Sys2Proof.Machine
end

section
/-! ## Power-on reset (O3) -/

namespace Sys2Proof.Machine

set_option Elab.async false

/-! ### What has no effect on a part held in reset (R193) -/

theorem when_idle {c : Part → Bool} {f : Part → Part} {s : State} (h : c s.part = true → f s.part = s.part) :
    when c f s = .next s := by
  show Host.Outcome.next { s with part := if c s.part then f s.part else s.part } = _
  cases hc : c s.part with
  | false => rfl
  | true => simp [h hc]

theorem onPart_idle {f : Part → Part} {s : State} (h : f s.part = s.part) :
    (Host.Outcome.next (s.onPart f) : Host.Outcome State Fault Refusal) = .next s := by
  rw [State.onPart, h]

/-- Outside SYNCHRONISED no management command is accepted (R183). -/
theorem accept_of_not_synchronised {p : Part} (h : p.line.state ≠ .synchronised) (tag code : Byte)
    (take : Part → Part) : accept tag code take p = p := by
  simp [accept, canAccept, h]

theorem acceptLock_of_not_synchronised {p : Part} (h : p.line.state ≠ .synchronised) (tag code : Byte)
    (take : Part → Part) : acceptLock tag code take p = p := by
  simp [acceptLock, canAccept, h]

section
variable (lines : Lines) (p : Part)

theorem heldPart_not_synchronised : (heldPart lines p).line.state ≠ .synchronised := nofun

/-- The lanes are DOWN and have no run of beacons. -/
theorem decideLanes_heldPart (down up : Bool) :
    decideLanes down up (heldPart lines p) = heldPart lines p := by
  cases down <;> cases up <;> rfl

theorem select_heldPart : select 0 (heldPart lines p) = heldPart lines p := by
  have hs : (heldPart lines p).junction.selection = 0 := rfl
  rw [select, if_pos (.inl hs.symm)]
  rfl

theorem requestIsDue_heldPart (pos : Fin 4) : requestIsDue (heldPart lines p) pos = false := by
  have ho : openAt (heldPart lines p) pos = none := by
    simp [openAt, heldPart, resetPart, State.reset, JunctionUnit.reset]
  rw [requestIsDue, ho]

/-- While RESET_N is low no command but power-on reset changes anything. -/
theorem exec_heldPart {c : Instr} (hc : ∀ x, c ≠ .powerOnReset x) (queue : List Instr) :
    exec c { part := heldPart lines p, pending := queue } =
      .next { part := heldPart lines p, pending := queue } := by
  have hs := heldPart_not_synchronised lines p
  cases c with
  | powerOnReset x => exact absurd rfl (hc x)
  | cellArrival | substituteCycleStart | slotOpening => rfl
  | laneDown | laneUp => exact onPart_idle (decideLanes_heldPart lines p _ _)
  | otherCabTimeout => exact when_idle fun _ => rfl
  | activationAttempt | settleComplete | brakeTimeout | entryToActive | pendingExitTaken | scrubPassBegin
  | stabledExit | speedSourceStale | hornMinReached | hornStuck | transferCompletion => rfl
  | speedLockAcquired => rfl
  | selectionTimeout => exact when_idle fun _ => select_heldPart lines p
  | requestTimeout pos => exact when_idle fun h => absurd (requestIsDue_heldPart lines p pos) (by simp [h])
  | doorStatusStale => exact when_idle fun _ => rfl
  | phaseEnd ch => cases ch <;> rfl
  | stepEnd ch => cases ch <;> rfl
  | lock tag table | unlock tag table | lockDown tag table =>
    exact onPart_idle (acceptLock_of_not_synchronised hs _ _ _)
  | _ => exact onPart_idle (accept_of_not_synchronised hs _ _ _)

end

/-! ### The state after power-on reset -/

/-- The entries of a SLOT table of zeros. -/
theorem slotEntries_zero (n : Nat) :
    slotEntries (List.replicate (3 * n) 0) = List.replicate n (slotEntryOf 0 0 0) := by
  induction n with
  | zero => rfl
  | succ n ih =>
    show slotEntryOf 0 0 0 :: slotEntries (List.replicate (3 * n) 0) = _
    rw [ih, List.replicate_succ]

/-- The two ends of a power-on reset differ in the level of RESET_N and in the node number (R193). -/
theorem powerOnReset_eq (high : Bool) (lines : Lines) (p : Part) :
    (if high then resetPart lines else heldPart lines p) = { resetPart lines with
      resetN := high
      node := if high then nodeNumber lines.node else p.node } := by
  cases high <;> rfl

theorem recordAt_resetPart (lines : Lines) (i : Fin 82) :
    recordAt (resetPart lines) i = SlotRecord.cleared := by
  simp [recordAt, resetPart, State.reset, SlotEngine.reset]

/-- The rows of the cap table after power-on reset (R76). -/
theorem getRow_reset (r : Row) :
    getRow (CapTable.reset 700) r =
      if r = .line then some 700 else if r = .cab ∨ r = .doors then some 0 else none := by
  cases r with
  | junction pos => simp [getRow, CapTable.reset]
  | _ => rfl

/-- Settles O3: the state after the reset field by field, and a held part's idleness. -/
theorem powerOnResetLineCabAndTraction : Obligations.PowerOnResetLineCabAndTraction := by
  intro lines s
  refine ⟨{ resetPart lines.toLines with
    resetN := lines.resetN
    node := if lines.resetN then nodeNumber lines.node else s.part.node }, ?_, rfl, fun h => ?_,
    fun h c queue hc => ?_, rfl, rfl, rfl, rfl, rfl, rfl, fun lane => ?_, fun e he => ?_, fun i => ?_, rfl, rfl, rfl,
    rfl, rfl, rfl, rfl, rfl, rfl, rfl, rfl, rfl, rfl, fun r => getRow_reset r, rfl, rfl, rfl⟩
  · rw [← powerOnReset_eq]
    rfl
  · simp [h, nodeNumber]
  · rw [← powerOnReset_eq, h]
    exact exec_heldPart lines.toLines s.part hc queue
  · cases lane <;> exact ⟨rfl, rfl, rfl, rfl, rfl⟩
  · exact List.eq_of_mem_replicate (slotEntries_zero 80 ▸ he)
  · exact recordAt_resetPart lines.toLines i

end Sys2Proof.Machine
end

section
/-! ## The invariants right after power-on reset (O55) -/

namespace Sys2Proof.Machine

set_option Elab.async false

theorem sumMatches_reset (ws : List Word) : sumMatches (Table.reset ws) = true := by
  simp [sumMatches, Table.reset]

theorem openAt_reset (pos : Fin 4) : openAt State.reset.part pos = none := by
  simp [openAt, State.reset, JunctionUnit.reset]

theorem cabOk_reset : CabOk State.reset.part := by
  refine ⟨?_, ?_, rfl, rfl⟩ <;> decide

/-- The envelope has no breakpoint in use, so that it is not valid (R91, R181). -/
theorem tablesOk_reset : TablesOk State.reset.part := by
  refine ⟨fun t => ?_, by decide +kernel, by decide +kernel, rfl, rfl, rfl, rfl, ?_, trivial⟩
  · cases t with
    | param => exact ⟨rfl, sumMatches_reset _⟩
    | _ => exact ⟨List.length_replicate, sumMatches_reset _⟩
  · have hv : State.reset.part.tables.envelopeValid = envelopeIsValid State.reset.part := by decide +kernel
    rw [hv, envelopeIsValid_iff]

theorem demandOk_reset : DemandOk State.reset.part := by
  refine ⟨?_, ?_, ?_, ?_⟩ <;> decide

/-- No record is open (R130). -/
theorem junctionOk_reset : JunctionOk State.reset.part := by
  refine ⟨fun pos => ?_, fun pos h => ?_, fun pos pos' _ r r' h => ?_, fun _ => ⟨?_, rfl, rfl⟩⟩
  · rw [openAt_reset]
    simp [State.reset, CapTable.reset]
  · simp [openAt_reset] at h
  · simp [openAt_reset] at h
  · decide +kernel

theorem lampOk_reset : LampOk State.reset.part :=
  ⟨by decide +kernel, rfl, rfl, rfl, fun _ => ⟨rfl, rfl⟩⟩

/-- Every source is IDLE (R166). -/
theorem soundOk_reset : SoundOk State.reset.part := by
  have idle : ∀ x, getSource State.reset.part.sound x = SoundSource.idle := fun x => by cases x <;> rfl
  have silent : ∀ x, isPlaying State.reset.part.sound x = false := fun x => by cases x <;> rfl
  refine ⟨⟨fun x y _ h => ?_, fun x h => ?_, fun x h => ?_⟩, rfl, fun _ => ⟨fun x => ?_, rfl⟩⟩
  · simp [silent] at h
  · simp [idle, SoundSource.idle] at h
  · simp [idle, SoundSource.idle] at h
  · rw [idle]
    rfl

/-- Settles O55: invariant by invariant. -/
theorem invariantsHoldAtReset : Obligations.InvariantsHoldAtReset :=
  ⟨lineOk_resetPart Lines.low, storesOk_resetPart Lines.low, cabOk_reset, tablesOk_reset, demandOk_reset,
    junctionOk_reset, lampOk_reset, soundOk_reset⟩

end Sys2Proof.Machine
end

section
/-! ## The governing entry and the disposition that applies (O14, O19) -/

namespace Sys2Proof.Machine

set_option Elab.async false

/-! ### The first match of the table (R22) -/

/-- A table of `n` entries of three words has `n` entries (R168). -/
theorem slotEntries_length {n : Nat} {ws : List Word} (h : ws.length = 3 * n) :
    (slotEntries ws).length = n := by
  induction n generalizing ws with
  | zero =>
    rw [List.length_eq_zero_iff.mp h]
    rfl
  | succ n ih =>
    match ws, h with
    | _ :: _ :: _ :: ws, h =>
      have hrest : ws.length = 3 * n := by simp at h; omega
      simp [slotEntries, ih hrest]

/-- The entry found is of the table and matches, and none before it matches. -/
theorem firstMatch_some {slot cycle : Six} {es : List SlotEntry} {k i : Nat} {e : SlotEntry}
    (h : firstMatch slot cycle es k = some (i, e)) :
    ∃ j, i = k + j ∧ es[j]? = some e ∧ matchesOpening slot cycle e = true
      ∧ ∀ j' e', j' < j → es[j']? = some e' → matchesOpening slot cycle e' = false := by
  induction es generalizing k with
  | nil => cases h
  | cons x xs ih =>
    rw [firstMatch] at h
    split at h
    · next hx =>
      cases h
      exact ⟨0, rfl, rfl, hx, fun j' _ hj => absurd hj (Nat.not_lt_zero j')⟩
    · next hx =>
      obtain ⟨j, rfl, he, hm, hbefore⟩ := ih h
      refine ⟨j + 1, by omega, he, hm, fun j' e' hj he' => ?_⟩
      cases j' with
      | zero =>
        cases he'
        simpa using hx
      | succ j' => exact hbefore j' e' (by omega) he'

theorem firstMatch_none {slot cycle : Six} {es : List SlotEntry} {k : Nat}
    (h : firstMatch slot cycle es k = none) : ∀ e ∈ es, matchesOpening slot cycle e = false := by
  induction es generalizing k with
  | nil => simp
  | cons x xs ih =>
    rw [firstMatch] at h
    split at h
    · cases h
    · next hx => exact List.forall_mem_cons.mpr ⟨by simpa using hx, ih h⟩

theorem tableGoverning_some {slot : Six} {p : Part} {g : Governing} (h : tableGoverning slot p = some g) :
    (slotEntries p.tables.slot.words)[g.index.val]? = some g.entry
      ∧ matchesOpening slot p.line.counter g.entry = true
      ∧ ∀ i e, i < g.index.val → (slotEntries p.tables.slot.words)[i]? = some e →
          matchesOpening slot p.line.counter e = false := by
  unfold tableGoverning at h
  split at h
  · next i e hf =>
    obtain ⟨j, rfl, found⟩ := firstMatch_some hf
    rw [Nat.zero_add] at h
    split at h
    · cases h
      exact found
    · cases h
  · cases h

/-- With its 80 entries the table governs where an entry matches (R21, R22). -/
theorem tableGoverning_none {slot : Six} {p : Part} (hlen : p.tables.slot.words.length = 240)
    (h : tableGoverning slot p = none) :
    ∀ e ∈ slotEntries p.tables.slot.words, matchesOpening slot p.line.counter e = false := by
  unfold tableGoverning at h
  split at h
  · next i e hf =>
    obtain ⟨j, rfl, found, -, -⟩ := firstMatch_some hf
    have hj := (List.getElem?_eq_some_iff.mp found).1
    rw [slotEntries_length (n := 80) hlen] at hj
    rw [dif_pos (by omega)] at h
    cases h
  · next hf => exact firstMatch_none hf

/-! ### The bootstrap entries (R23) -/

/-- With both management functions in the table no bootstrap entry stands in. -/
theorem governingAt_of_hasFn {p : Part} (hin : hasFn p .mgmtIn = true) (hout : hasFn p .mgmtOut = true)
    (slot : Six) : governingAt slot p = tableGoverning slot p := by
  simp [governingAt, hin, hout]

/-- The bootstrap in entry matches slot 62 in every cycle. -/
theorem matchesOpening_bootstrapIn (slot cycle : Six) :
    matchesOpening slot cycle bootstrapIn = true ↔ slot = 62 := by
  simp [matchesOpening, bootstrapIn, filterMatches, Nat.mod_one, eq_comm (a := slot)]

/-- The bootstrap out entry matches slot 63 in the cycle of the node number. -/
theorem matchesOpening_bootstrapOut (slot cycle node : Six) :
    matchesOpening slot cycle (bootstrapOut node) = true ↔ slot = 63 ∧ cycle = node := by
  have hmod : cycle.toNat % 64 = cycle.toNat := Nat.mod_eq_of_lt cycle.isLt
  simp [matchesOpening, bootstrapOut, filterMatches, hmod, ← BitVec.toNat_inj (x := cycle), eq_comm (a := slot)]

/-- Settles O14: by the first match, and by what the bootstrap entries match. -/
theorem governingEntryIsFirstMatch : Obligations.GoverningEntryIsFirstMatch := by
  intro slot p hlen
  refine ⟨fun hin hout => ?_, fun hin => ?_, fun hout hnode => ?_⟩
  · rw [governingAt_of_hasFn hin hout]
    exact ⟨fun g h => tableGoverning_some h, tableGoverning_none hlen⟩
  · refine ⟨{ index := 80, entry := bootstrapIn }, ?_, rfl, rfl, rfl, rfl, rfl⟩
    simp [governingAt, hin, matchesOpening_bootstrapIn]
  · refine ⟨{ index := 81, entry := bootstrapOut p.node }, ?_, rfl, rfl, rfl, rfl⟩
    simp [governingAt, hout, matchesOpening_bootstrapIn, matchesOpening_bootstrapOut, hnode]

/-! ### The disposition that applies (R29, R30, R39) -/

/-- INACTIVE and STABLED degrade the disposition that the function fits; the other cab states take it. -/
theorem appliedDisposition_eq (st : CabState) (e : SlotEntry) :
    appliedDisposition st e =
      if st = .inactive then inactiveDisposition (fittedDisposition e)
      else if st = .stabled then stabledDisposition e.fn (fittedDisposition e)
      else fittedDisposition e := by
  cases st <;> rfl

/-- OBSERVE, and TAKE and REWRITE of another function than their own, fit as OBSERVE. -/
theorem fittedDisposition_observe {e : SlotEntry} (h : e.disposition = .observe
      ∨ (e.disposition = .take ∧ e.fn ≠ .mgmtIn) ∨ (e.disposition = .rewrite ∧ e.fn ≠ .stopButton)) :
    fittedDisposition e = .observe := by
  rcases h with h | ⟨h, hf⟩ | ⟨h, hf⟩
  · simp [fittedDisposition, h]
  · simp [fittedDisposition, h, hf]
  · simp [fittedDisposition, h, hf]

/-- Settles O19: the disposition that the function fits, then what the cab state makes of it. -/
theorem cabStateDegradesDispositions : Obligations.CabStateDegradesDispositions := by
  intro e st
  rw [appliedDisposition_eq]
  refine ⟨fun h => ?_, fun h => ?_, fun h hf => ?_, fun h hf => ?_, fun h => ?_⟩
  · have fits : fittedDisposition e = .pass := by simp [fittedDisposition, h]
    simp [fits, inactiveDisposition, stabledDisposition]
  · have fits : fittedDisposition e = .own := by simp [fittedDisposition, h]
    simp [fits, inactiveDisposition, stabledDisposition]
  · have fits : fittedDisposition e = .take := by simp [fittedDisposition, h, hf]
    simp [fits, inactiveDisposition, stabledDisposition]
  · have fits : fittedDisposition e = .rewrite := by simp [fittedDisposition, h, hf]
    simp [fits, inactiveDisposition, stabledDisposition]
  · rw [fittedDisposition_observe h]
    by_cases hs : st = .stabled
    · by_cases hf : e.fn = .mgmtIn ∨ e.fn = .otherCab
      · rcases hf with hf | hf <;> simp [hs, stabledDisposition, hf]
      · rw [not_or] at hf
        simp [hs, stabledDisposition, hf]
    · simp [hs, inactiveDisposition]

end Sys2Proof.Machine
end

section
/-! ## The part's own cells (R36 to R40): O20, O21, O22 -/

namespace Sys2Proof.Machine

set_option Elab.async false

/-! ### The response queue (R184) -/

theorem respond_of_room {p : Part} (h : p.mgmt.queue.length < 4) (tag code : Byte) (x : Result)
    (ws : List Word) :
    respond tag code x ws p = { p with mgmt := { p.mgmt with queue := p.mgmt.queue ++
      [{ node := p.node, code := code, tag := tag, result := x, data := padTo 5 ws }] } } :=
  if_pos h

theorem respond_of_full {p : Part} (h : 4 ≤ p.mgmt.queue.length) (tag code : Byte) (x : Result)
    (ws : List Word) : respond tag code x ws p = setFlag .responseLost p :=
  if_neg (Nat.not_lt.mpr h)

/-! ### What the cab state silences (R39) -/

theorem isSilenced_of_cabActs {p : Part} (h : cabActs p = true) (fn : Fn) : isSilenced fn p = false := by
  simp [isSilenced, h]

theorem cabActs_eq_false {p : Part} (h : p.cab.state = .inactive ∨ p.cab.state = .stabled) :
    cabActs p = false := by
  rcases h with h | h <;> simp [cabActs, h]

/-- In INACTIVE and STABLED the silenced functions take no content. -/
theorem emission_silenced {g : Governing} {p : Part} (hf : silencedFn g.entry.fn = true)
    (h : cabActs p = false) : emission g p = (p, none) := by
  simp [emission, isSilenced, hf, h]

/-! ### The content of each owned function (R36, R38) -/

section
variable {g : Governing} {p : Part}

theorem emission_cabStatusOut (hf : g.entry.fn = .cabStatusOut) :
    emission g p = standing g (cabStatusWords p) p := by
  simp [emission, isSilenced, silencedFn, hf]

theorem emission_mgmtOut (hf : g.entry.fn = .mgmtOut) : emission g p = itemSent g (takeResponse p) := by
  simp [emission, isSilenced, silencedFn, hf]

theorem emission_demandOut (hf : g.entry.fn = .demandOut) (h : cabActs p = true) :
    emission g p = standing g (demandWords p) p := by
  simp [emission, isSilenced_of_cabActs h, hf]

theorem emission_signOut (hf : g.entry.fn = .signOut) (h : cabActs p = true) :
    emission g p = standing g (signWords p) p := by
  simp [emission, isSilenced_of_cabActs h, hf]

theorem emission_doorOut (hf : g.entry.fn = .doorOut) (h : cabActs p = true) :
    emission g p = standing g (doorWords p) p := by
  simp [emission, isSilenced_of_cabActs h, hf]

theorem emission_chimeOut (hf : g.entry.fn = .chimeOut) (h : cabActs p = true) :
    emission g p = standing g (chimeWords p) p := by
  simp [emission, isSilenced_of_cabActs h, hf]

theorem emission_pointRequestOut (hf : g.entry.fn = .pointRequestOut) (h : cabActs p = true) :
    emission g p = itemSent g (nextItem p) := by
  simp [emission, isSilenced_of_cabActs h, hf]

/-- With SINGLE a content that was last sent is not emitted again (R37). -/
theorem standing_repeated {content : List Word} (hs : g.entry.single = true)
    (hl : (recordAt p g.index).lastSent = some (padTo g.entry.len content)) :
    standing g content p = (p, none) :=
  if_pos ⟨hs, hl⟩

/-- Any other content is emitted, and is then what was last sent (R36, R37). -/
theorem standing_emitted {content : List Word} (h : g.entry.single = false
      ∨ (recordAt p g.index).lastSent ≠ some (padTo g.entry.len content)) :
    standing g content p = (markSent g (padTo g.entry.len content) p, some (padTo g.entry.len content)) := by
  refine if_neg fun ⟨hs, hl⟩ => ?_
  rcases h with h | h
  · simp [hs] at h
  · exact h hl

end

/-! ### The words of SIGN_OUT and CHIME_OUT (R143, R162) -/

/-- A byte is the sum of its bits' place values. -/
theorem toNat_eq_sum_bits (b : Byte) :
    b.toNat = (List.finRange 8).foldl (fun n z => n + bit (b.getLsbD z.val) * 2 ^ z.val) 0 := by
  have hb := b.isLt
  have hbit : ∀ i, bit (b.getLsbD i) = b.toNat / 2 ^ i % 2 := fun i => by
    rw [← BitVec.testBit_toNat, Nat.testBit_eq_decide_div_mod_eq]
    simp only [bit, decide_eq_true_eq]
    split <;> omega
  simp only [hbit, List.finRange_succ, List.finRange_zero, List.map_cons, List.map_nil, List.foldl_cons,
    List.foldl_nil]
  simp
  omega

/-- The zones of pending assistance, as a byte, give the assistance bitmap (R143). -/
theorem assistanceBitmap_eq {p : Part} {zones : Byte}
    (h : ∀ z : Fin 8, zones.getLsbD z.val = decide (p.stop.assistance[z] ≠ .clear)) :
    assistanceBitmap p = zones.toNat := by
  have hz : ∀ z : Fin 8, (p.stop.assistance[z] != .clear) = zones.getLsbD z.val := fun z => by
    rw [h z, Bool.eq_iff_iff, bne_iff_ne, decide_eq_true_iff]
  rw [toNat_eq_sum_bits, assistanceBitmap]
  simp only [hz]

theorem signWords_eq {p : Part} {zones : Byte}
    (h : ∀ z : Fin 8, zones.getLsbD z.val = decide (p.stop.assistance[z] ≠ .clear)) :
    signWords p = [word (bit p.stop.request * 256 + zones.toNat)] := by
  rw [signWords, assistanceBitmap_eq h]

theorem chimeWords_silent {p : Part} (h : playing p.sound .chime = none) : chimeWords p = [0] := by
  simp [chimeWords, chimeRole, chimeTone, sounding, h, word]

theorem mem_members_of_playing {snd : Sound} {ch : Channel} {x : Source} (h : playing snd ch = some x) :
    channelOf x = ch :=
  (mem_members x ch).mp (List.mem_of_find?_eq_some h)

theorem chimeWords_playing {p : Part} {x : Source} (h : playing p.sound .chime = some x)
    (ht : (getSource p.sound x).pattern.tone ≤ 15) :
    chimeWords p = [word ((if x = .stop then 1 else if x = .assist then 2 else 3) * 256
      + (if (getSource p.sound x).phaseOn = true then (getSource p.sound x).pattern.tone else 0))] := by
  have hrole : chimeRole p = if x = .stop then 1 else if x = .assist then 2 else 3 := by
    have hx := mem_members_of_playing h
    cases x <;> simp_all [chimeRole, channelOf]
  have htone : chimeTone p = if (getSource p.sound x).phaseOn = true
      then (getSource p.sound x).pattern.tone else 0 := by
    cases hp : (getSource p.sound x).phaseOn <;> simp [chimeTone, sounding, h, hp]
  have hmod : chimeTone p % 16 = chimeTone p := Nat.mod_eq_of_lt (by rw [htone]; split <;> omega)
  rw [chimeWords, hmod, hrole, htone]

/-- Settles O21: the content of each function, then what SINGLE makes of a standing content. -/
theorem standingContentIsEmitted : Obligations.StandingContentIsEmitted := by
  intro g p
  refine ⟨fun hst hf => ?_, fun ha hf => ?_, fun content hc => ?_⟩
  · refine emission_silenced ?_ (cabActs_eq_false hst)
    rcases hf with hf | hf | hf | hf | hf <;> rw [hf] <;> rfl
  · rw [emission_pointRequestOut hf ha]
    refine ⟨fun h => ?_, fun item h => ?_⟩
    · simp [itemSent, h]
    · simp [itemSent, h, markSent]
  · have content_standing : emission g p = standing g content p := by
      rcases hc with ⟨hf, ha, rfl⟩ | ⟨hf, rfl⟩ | ⟨hf, ha, zones, hz, rfl⟩ | ⟨hf, ha, rfl⟩ | ⟨hf, ha, hc⟩
      · exact emission_demandOut hf ha
      · exact emission_cabStatusOut hf
      · rw [emission_signOut hf ha, signWords_eq hz]
      · exact emission_doorOut hf ha
      · rw [emission_chimeOut hf ha]
        rcases hc with ⟨hn, rfl⟩ | ⟨x, hx, ht, rfl⟩
        · rw [chimeWords_silent hn]
        · rw [chimeWords_playing hx ht]
    rw [content_standing]
    exact ⟨standing_repeated, standing_emitted⟩

/-- Settles O22: by the room in the queue, and by the response that is the oldest. -/
theorem responseQueueHoldsFour : Obligations.ResponseQueueHoldsFour := by
  intro p tag code result data
  refine ⟨fun h => respond_of_room h _ _ _ _, fun h => respond_of_full h _ _ _ _, fun g hf => ?_⟩
  rw [emission_mgmtOut hf]
  refine ⟨fun h => ?_, fun r rs h => ?_⟩
  · simp [takeResponse, h, itemSent]
  · rw [takeResponse, h]
    exact ⟨rfl, rfl⟩

/-! ### The own cell on the lanes (R36) -/

/-- Taking a content leaves the node number and what the lanes have sent. -/
theorem emission_unitFrame (g : Governing) (p : Part) : UnitFrame p (emission g p).1 := by
  have sent : ∀ ws q, UnitFrame q (markSent g ws q) := fun ws q => putRecord_unitFrame _ _ q
  have item : ∀ x : Part × Option (List Word), UnitFrame p x.1 → UnitFrame p (itemSent g x).1 :=
    fun x hx => by
      unfold itemSent
      split
      · exact hx.trans (sent _ _)
      · exact hx
  have stand : ∀ ws, UnitFrame p (standing g ws p).1 := fun ws => by
    unfold standing
    dsimp only
    split
    · exact .refl p
    · exact sent _ p
  unfold emission
  split
  · exact .refl p
  · split
    · exact stand _
    · exact stand _
    · exact stand _
    · exact stand _
    · exact stand _
    · exact item _ (nextItem_unitFrame p)
    · refine item _ ?_
      unfold takeResponse
      split
      · exact .update
      · exact .refl p
    all_goals exact .refl p

/-- A cell on the lanes that are UP: each has it once, a lane that is DOWN not. -/
theorem driveIfUp_both (cell : List Word) (p : Part) :
    driveIfUp .B cell (driveIfUp .A cell p) = { p with
      sentA := if p.line.laneA.up then cell :: p.sentA else p.sentA
      sentB := if p.line.laneB.up then cell :: p.sentB else p.sentB } := by
  cases hA : p.line.laneA.up <;> cases hB : p.line.laneB.up <;>
    simp [driveIfUp, laneOf, hA, hB, drive]

theorem lineLost_iff (p : Part) : lineLost p = true ↔ ∀ l, (laneOf p.line l).up = false := by
  constructor
  · intro h l
    simp only [lineLost, Bool.and_eq_true, Bool.not_eq_true'] at h
    cases l
    · exact h.1
    · exact h.2
  · intro h
    have hA := h .A
    have hB := h .B
    simp only [laneOf] at hA hB
    simp [lineLost, hA, hB]

/-- Of the part the own cell carries the cycle number and the node number alone (R36). -/
theorem ownCell_congr (slot : Six) (fn : Fn) (content : Option (List Word)) {p q : Part}
    (hcounter : p.line.counter = q.line.counter) (hnode : p.node = q.node) :
    ownCell slot fn content p = ownCell slot fn content q := by
  unfold ownCell
  rw [hcounter, hnode]

/-- An OWN entry's cell, with a lane UP: the content is taken from the part as it stands (R36). -/
theorem emitOwned_of_up {p : Part} (h : lineLost p = false) (slot : Six) (g : Governing) :
    emitOwned slot g p = { (emission g p).1 with
      sentA := if p.line.laneA.up then ownCell slot g.entry.fn (emission g p).2 p :: p.sentA else p.sentA
      sentB := if p.line.laneB.up then ownCell slot g.entry.fn (emission g p).2 p :: p.sentB
        else p.sentB } := by
  have frame := emission_unitFrame g p
  have hcell : ownCell slot g.entry.fn (emission g p).2 (emission g p).1 =
      ownCell slot g.entry.fn (emission g p).2 p :=
    ownCell_congr _ _ _ (congrArg LineInterface.counter frame.line) frame.node
  rw [emitOwned, h]
  simp only [Bool.false_eq_true, if_false]
  rw [driveIfUp_both, hcell, frame.line, frame.sentA, frame.sentB]

/-- SLOT_OPENING in SYNCHRONISED before slot 63: the next slot is opened under its governing entry. -/
theorem exec_slotOpening {s : State} {n : Six} (hs : s.part.line.state = .synchronised)
    (hn : s.part.line.slotOpen = some n) (h63 : n ≠ 63) :
    exec .slotOpening s = .next { s with part := openSlot (n + 1) (closeSlot s.part) }
      ∧ openingEntry (n + 1) (closeSlot s.part) = governingAt (n + 1) s.part := by
  have hnext : nextSlot s.part = some (n + 1) := by
    rw [nextSlot, if_pos hs, hn]
    exact if_neg h63
  constructor
  · show Host.Outcome.next { s with part := slotTimer s.part } = _
    rw [slotTimer, hnext]
  · rw [openingEntry, if_neg (six_succ_ne_zero h63), closeSlot_eq]
    rfl

theorem openSlot_governed {slot : Six} {g : Governing} {p : Part} (h : openingEntry slot p = some g) :
    openSlot slot p =
      if g.entry.disposition = .own then emitOwned slot g (newOpening slot (some g) p)
      else newOpening slot (some g) p := by
  rw [← h]
  unfold openingEntry at h
  simp only [openSlot, newOpening, openingEntry, h]

/-- Settles O20: by the entry's disposition, and by the lanes that are UP. -/
theorem ownCellIsSentOnUpLanes : Obligations.OwnCellIsSentOnUpLanes := by
  intro s n g hs hn h63 hg closed opened taken cell
  obtain ⟨hexec, hentry⟩ := exec_slotOpening hs hn h63
  rw [hg] at hentry
  have hopening : newOpening (n + 1) (some g) (closeSlot s.part) = opened := rfl
  rw [hexec, openSlot_governed hentry, hopening]
  have hclosed := closeSlot_eq s.part
  have hcounter : opened.line.counter = s.part.line.counter := by rw [← hopening, hclosed]; rfl
  have hnode : opened.node = s.part.node := by rw [← hopening, hclosed]; rfl
  have hupA : opened.line.laneA.up = s.part.line.laneA.up := by rw [← hopening, hclosed]; rfl
  have hupB : opened.line.laneB.up = s.part.line.laneB.up := by rw [← hopening, hclosed]; rfl
  have hsentA : opened.sentA = s.part.sentA := by rw [← hopening, hclosed]; rfl
  have hsentB : opened.sentB = s.part.sentB := by rw [← hopening, hclosed]; rfl
  have hlost : lineLost opened = lineLost s.part := by rw [lineLost, hupA, hupB]; rfl
  have hcell : ownCell (n + 1) g.entry.fn (emission g opened).2 opened = cell :=
    ownCell_congr (n + 1) g.entry.fn (emission g opened).2 hcounter hnode
  refine ⟨fun hd ⟨l, hl⟩ => ?_, fun h => ?_⟩
  · have hnot : lineLost s.part = false := by
      rw [← Bool.not_eq_true, lineLost_iff]
      exact fun hdown => by simp [hdown l] at hl
    rw [if_pos hd, emitOwned_of_up (hlost.trans hnot), hcell, hupA, hupB, hsentA, hsentB]
  · have hquiet : (if g.entry.disposition = .own then emitOwned (n + 1) g opened else opened) = opened := by
      rcases h with h | h
      · exact if_neg h
      · rw [emitOwned, hlost, (lineLost_iff s.part).mpr h]
        exact ite_self _
    rw [hquiet]

end Sys2Proof.Machine
end

section
/-! ## The reading commands (R185, R187, R188): O46 -/

namespace Sys2Proof.Machine

set_option Elab.async false

section
variable {tag : Byte} {s : State}

theorem exec_status (h : Takes tag s.part) (page : Word) :
    exec (.status tag page) s = .next { s with part := statusCommand tag page s.part } := by
  show Host.Outcome.next { s with part := accept tag 1 (statusCommand tag page) s.part } = _
  rw [accept_of_takes h]

theorem exec_readEntry (h : Takes tag s.part) (table index offset : Word) :
    exec (.readEntry tag table index offset) s =
      .next { s with part := readEntryCommand tag table index offset s.part } := by
  show Host.Outcome.next { s with part := accept tag 5 (readEntryCommand tag table index offset) s.part } = _
  rw [accept_of_takes h]

theorem exec_readRecord (h : Takes tag s.part) (index page : Word) :
    exec (.readRecord tag index page) s =
      .next { s with part := readRecordCommand tag index page s.part } := by
  show Host.Outcome.next { s with part := accept tag 13 (readRecordCommand tag index page) s.part } = _
  rw [accept_of_takes h]

end

/-! ### STATUS (R185) -/

theorem statusCommand_page {tag : Byte} {page : Word} {p : Part} {data : List Word}
    (h : statusPage page.toNat p = some data) : statusCommand tag page p = respond tag 1 .ok data p := by
  simp only [statusCommand, h]

/-- The pages are numbered 0 to 3. -/
theorem statusPage_none {n : Nat} (h : 3 < n) (p : Part) : statusPage n p = none := by
  match n, h with
  | n + 4, _ => rfl

theorem statusCommand_range {tag : Byte} {page : Word} (h : 3 < page.toNat) (p : Part) :
    statusCommand tag page p = respond tag 1 .range [] p := by
  simp only [statusCommand, statusPage_none h]

/-! ### READ_RECORD (R188) -/

/-- A record's page answers with the record's flags and outcomes, and clears NEW and LOST (R35). -/
theorem readRecordCommand_page {tag : Byte} {index page : Word} {i : Fin 82} (hi : i.val = index.toNat)
    {p : Part} {data : List Word} (h : recordPage page.toNat (recordAt p i) = some data) :
    readRecordCommand tag index page p =
      respond tag 13 .ok (recordFlagsWord (recordAt p i) :: data)
        (putRecord i { recordAt p i with new := false, lost := false } p) := by
  have hlt : index.toNat < 82 := hi ▸ i.isLt
  have he : (⟨index.toNat, hlt⟩ : Fin 82) = i := Fin.ext hi.symm
  simp only [readRecordCommand, dif_pos hlt, he, h]

/-- The pages of a record are numbered 0 to 2. -/
theorem recordPage_none {n : Nat} (h : 2 < n) (r : SlotRecord) : recordPage n r = none := by
  match n, h with
  | n + 3, _ => rfl

theorem readRecordCommand_range {tag : Byte} {index page : Word} (h : 81 < index.toNat ∨ 2 < page.toNat)
    (p : Part) : readRecordCommand tag index page p = respond tag 13 .range [] p := by
  unfold readRecordCommand
  split
  · next hlt => simp only [recordPage_none (h.resolve_left (by omega))]
  · rfl

/-- Settles O46: page by page, and by the arguments out of range. -/
theorem readingCommandsAnswer : Obligations.ReadingCommandsAnswer := by
  intro s tag ht
  refine ⟨fun page => ?_, fun table index offset => ?_, fun index page i hi => ⟨fun data hd => ?_, fun hp => ?_⟩,
    fun index page hi => ?_⟩
  · rw [exec_status ht]
    by_cases h0 : page = 0
    · rw [if_pos h0, h0, statusCommand_page rfl]
      rfl
    by_cases h1 : page = 1
    · rw [if_neg h0, if_pos h1, h1, statusCommand_page rfl]
      rfl
    by_cases h2 : page = 2
    · rw [if_neg h0, if_neg h1, if_pos h2, h2, statusCommand_page rfl]
      simp only [statusPage2, overTables, tableAt, tableCode]
      norm_num
    by_cases h3 : page = 3
    · rw [if_neg h0, if_neg h1, if_neg h2, if_pos h3, h3, statusCommand_page rfl]
      rfl
    · rw [if_neg h0, if_neg h1, if_neg h2, if_neg h3, statusCommand_range (by bv_omega)]
  · rw [exec_readEntry ht, readEntryCommand]
    rfl
  · rw [exec_readRecord ht]
    have hpage : recordPage page.toNat (recordAt s.part i) = some data := by
      rcases hd with ⟨rfl, rfl⟩ | ⟨rfl, rfl⟩ | ⟨rfl, rfl⟩ <;> rfl
    rw [readRecordCommand_page hi hpage]
    rfl
  · rw [exec_readRecord ht, readRecordCommand_range (.inr hp)]
  · rw [exec_readRecord ht, readRecordCommand_range (.inl hi)]

end Sys2Proof.Machine
end

section
/-! ## The structural checks of the six tables (R41, R180), and the stages SETTLE and TABLE_CHECK: O25 -/

namespace Sys2Proof.Machine

set_option Elab.async false

/-- A relation of every pair in list order, by the places of the two. -/
theorem pairwise_iff_places {α : Type} {R : α → α → Prop} {l : List α} :
    l.Pairwise R ↔ ∀ (i j : Nat) (a b : α), i < j → l[i]? = some a → l[j]? = some b → R a b := by
  rw [List.pairwise_iff_getElem]
  constructor
  · intro h i j a b hij ha hb
    obtain ⟨hi, rfl⟩ := List.getElem?_eq_some_iff.mp ha
    obtain ⟨hj, rfl⟩ := List.getElem?_eq_some_iff.mp hb
    exact h i j hi hj hij
  · exact fun h i j hi hj hij =>
      h i j _ _ hij (List.getElem?_eq_getElem hi) (List.getElem?_eq_getElem hj)

theorem allZero_iff (ws : List Word) : allZero ws = true ↔ ∀ w ∈ ws, w = 0 := by
  simp [allZero]

theorem between_iff (lo hi : Nat) (w : Word) : between lo hi w = true ↔ lo ≤ w.toNat ∧ w.toNat ≤ hi := by
  simp [between]

/-! ### SLOT (R41) -/

theorem distinctFilters_iff (es : List SlotEntry) :
    distinctFilters es = true ↔ ∀ (i j : Nat) (a b : SlotEntry), i < j → es[i]? = some a →
      es[j]? = some b → ¬ (a.slot = b.slot ∧ a.base = b.base ∧ a.rep = b.rep) := by
  rw [← pairwise_iff_places]
  induction es with
  | nil => simp [distinctFilters]
  | cons e es ih =>
    rw [distinctFilters, Bool.and_eq_true, ih, List.pairwise_cons, List.all_eq_true]
    refine and_congr_left fun _ => forall₂_congr fun x _ => ?_
    simp [imp_iff_not_or, or_assoc, eq_comm (a := x.slot), eq_comm (a := x.base), eq_comm (a := x.rep)]

/-- Among enabled entries those with a function are found by the function alone. -/
theorem enabledWith_of_enabled {es : List SlotEntry} (h : ∀ e ∈ es, e.enable = true) (f : Fn) :
    enabledWith es f = es.filter fun e => e.fn == f :=
  List.filter_congr fun e he => by simp [h e he]

theorem slotStructure_iff (words : List Word) :
    slotStructure words = true ↔
      ∀ es : List SlotEntry, es = (slotEntries words).filter (fun e => e.enable) →
        (∀ f ∈ [Fn.handle, .speed, .marker, .doorStatus, .emergency, .otherCab, .demandOut,
            .cabStatusOut, .pointRequestOut, .chimeOut], es.countP (fun e => e.fn == f) = 1)
        ∧ (∀ e ∈ es, e.fn = .demandOut → e.single = false)
        ∧ (∃ e ∈ es, e.fn = .mgmtIn) ∧ (∃ e ∈ es, e.fn = .mgmtOut)
        ∧ (∀ e ∈ es, e.disposition = .own ↔ isOwned e.fn = true)
        ∧ (∀ (i j : Nat) (a b : SlotEntry), i < j → es[i]? = some a → es[j]? = some b →
            ¬ (a.slot = b.slot ∧ a.base = b.base ∧ a.rep = b.rep)) := by
  rw [forall_eq]
  unfold slotStructure
  generalize hes : (slotEntries words).filter (fun e => e.enable) = es
  have enabled : ∀ e ∈ es, e.enable = true := fun e he => by
    rw [← hes] at he
    exact (List.mem_filter.mp he).2
  have present : ∀ f, ((enabledWith es f).length != 0) = true ↔ ∃ e ∈ es, e.fn = f := fun f => by
    rw [enabledWith_of_enabled enabled, ← List.countP_eq_length_filter, bne_iff_ne, ← Nat.pos_iff_ne_zero,
      List.countP_pos_iff]
    simp
  have single : (enabledWith es .demandOut).all (fun e => !e.single) = true ↔
      ∀ e ∈ es, e.fn = .demandOut → e.single = false := by
    rw [enabledWith_of_enabled enabled]
    simp [imp_iff_not_or]
  have owned : es.all (fun e => (e.disposition == .own) == isOwned e.fn) = true ↔
      ∀ e ∈ es, e.disposition = .own ↔ isOwned e.fn = true := by
    rw [List.all_eq_true]
    refine forall₂_congr fun e _ => ?_
    rw [beq_iff_eq, Bool.eq_iff_iff, beq_iff_eq]
  simp only [Bool.and_eq_true, List.all_eq_true, present, single, owned, distinctFilters_iff, and_assoc]
  refine and_congr_left' (forall₂_congr fun f _ => ?_)
  rw [enabledWith_of_enabled enabled, ← List.countP_eq_length_filter, beq_iff_eq]

/-! ### PARAM (R169) -/

theorem wordsInRanges_iff (ws : List Word) (rs : List (Nat × Nat)) :
    wordsInRanges ws rs = true ↔ ws.length = rs.length
      ∧ ∀ (i : Nat) (w : Word) (lo hi : Nat), ws[i]? = some w → rs[i]? = some (lo, hi) →
          lo ≤ w.toNat ∧ w.toNat ≤ hi := by
  induction ws generalizing rs with
  | nil => cases rs <;> simp [wordsInRanges]
  | cons w ws ih =>
    cases rs with
    | nil => simp [wordsInRanges]
    | cons r rs =>
      rw [wordsInRanges, Bool.and_eq_true, ih, between_iff]
      constructor
      · rintro ⟨hr, hlen, hrest⟩
        refine ⟨by simp [hlen], fun i v lo hi hv hlo => ?_⟩
        cases i with
        | zero =>
          cases hv
          cases hlo
          exact hr
        | succ i => exact hrest i v lo hi hv hlo
      · rintro ⟨hlen, hall⟩
        exact ⟨hall 0 w r.1 r.2 rfl rfl, by simpa using hlen, fun i => hall (i + 1)⟩

/-! ### CADENCE (R180) -/

theorem patternsInRange_iff (words : List Word) :
    patternsInRange words = true ↔ ∀ x : Source,
      let w0 := wordAt words (32 + 2 * patternIndex x)
      let w1 := wordAt words (33 + 2 * patternIndex x)
      (w0 = 0 ∧ w1 = 0) ∨ patternInRange x w0 w1 = true := by
  have every : ∀ x : Source, x ∈ [Source.driverBell, .depart, .alarm, .assist, .stop] := fun x => by
    cases x <;> decide
  rw [patternsInRange, List.all_eq_true]
  refine ⟨fun h x => ?_, fun h x _ => ?_⟩
  · have hx := h x (every x)
    simpa [allZero_iff] using hx
  · have hx := h x
    simpa [allZero_iff] using hx

theorem cadenceStructure_iff (words param : List Word) :
    cadenceStructure words param = true ↔
      (∀ x : Source,
        let w0 := wordAt words (32 + 2 * patternIndex x)
        let w1 := wordAt words (33 + 2 * patternIndex x)
        (w0 = 0 ∧ w1 = 0) ∨ patternInRange x w0 w1 = true)
      ∧ 1 ≤ (patternOf words .alarm).steps
      ∧ (isOn (wordAt param 17) = true → 1 ≤ (patternOf words .depart).steps) := by
  rw [cadenceStructure, Bool.and_eq_true, Bool.and_eq_true, patternsInRange_iff, decide_eq_true_eq, and_assoc]
  cases isOn (wordAt param 17) <;> simp

/-! ### MARKER (R180) -/

theorem markersInRange_iff (words : List Word) :
    markersInRange words = true ↔ ∀ (i : Nat) (w0 w1 : Word), words[2 * i]? = some w0 →
      words[2 * i + 1]? = some w1 → (markerEntryOf w0 w1).id = 0 ∨ markerInRange w0 w1 = true := by
  induction words using markersInRange.induct with
  | case1 w0 w1 ws ih =>
    rw [markersInRange, Bool.and_eq_true, ih, Bool.or_eq_true, beq_iff_eq]
    constructor
    · rintro ⟨h, hrest⟩ i v0 v1 h0 h1
      cases i with
      | zero =>
        cases h0
        cases h1
        exact h
      | succ i => exact hrest i v0 v1 h0 h1
    · exact fun h => ⟨h 0 w0 w1 rfl rfl, fun i => h (i + 1)⟩
  | case2 ws hshort =>
    have hlen : ws.length ≤ 1 := by
      match ws, hshort with
      | [], _ => decide
      | [_], _ => simp
      | w0 :: w1 :: ws, h => exact absurd rfl (h w0 w1 ws)
    rw [markersInRange]
    · refine iff_of_true rfl fun i w0 w1 _ h1 => ?_
      have := (List.getElem?_eq_some_iff.mp h1).1
      omega
    · exact hshort

/-- The ids of the non-empty entries are distinct where no later entry has the id of an earlier one. -/
theorem markerIds_nodup_iff (words : List Word) :
    (markerIds words).Nodup ↔ ∀ (i j : Nat) (a b : MarkerEntry), i < j →
      (markerEntries words)[i]? = some a → (markerEntries words)[j]? = some b → a.id ≠ 0 → a.id ≠ b.id := by
  rw [← pairwise_iff_places, markerIds, List.Nodup, List.pairwise_map, List.pairwise_filter]
  refine List.Pairwise.iff fun a b => ?_
  simp only [bne_iff_ne]
  refine ⟨fun h ha hab => ?_, fun h ha _ => h ha⟩
  exact h ha (hab ▸ ha) hab

theorem markerStructure_iff (words : List Word) :
    markerStructure words = true ↔
      (∀ (i : Nat) (w0 w1 : Word), words[2 * i]? = some w0 → words[2 * i + 1]? = some w1 →
        (markerEntryOf w0 w1).id = 0 ∨ markerInRange w0 w1 = true)
      ∧ (∀ (i j : Nat) (a b : MarkerEntry), i < j → (markerEntries words)[i]? = some a →
          (markerEntries words)[j]? = some b → a.id ≠ 0 → a.id ≠ b.id) := by
  rw [markerStructure, Bool.and_eq_true, markersInRange_iff, decide_eq_true_eq, markerIds_nodup_iff]

/-! ### ROUTE (R180) -/

theorem routeStructureAt_iff (words : List Word) (j : Nat) :
    routeStructureAt words j = true ↔ ∀ ws : List Word, ws = (words.drop (20 * j)).take 20 →
      ((∀ w ∈ ws, w = 0) ∨ routeEntryInRange ws = true)
      ∧ ((routeEntryOf ws).defined = true →
          ((routeEntryOf ws).route? (routeEntryOf ws).dflt).isSome = true
          ∧ (∀ (i k : Nat) (a b : Route), i < k → (routeEntryOf ws).routes[i]? = some a →
              (routeEntryOf ws).routes[k]? = some b → a.code ≠ b.code)) := by
  rw [forall_eq]
  have distinct : ∀ rs : List Route, (rs.map fun r => r.code).Nodup ↔
      ∀ (i k : Nat) (a b : Route), i < k → rs[i]? = some a → rs[k]? = some b → a.code ≠ b.code := fun rs => by
    rw [← pairwise_iff_places, List.Nodup, List.pairwise_map]
  rw [← distinct, ← allZero_iff]
  unfold routeStructureAt routeWords
  generalize (words.drop (20 * j)).take 20 = ws
  cases hd : (routeEntryOf ws).defined <;> simp [hd]

theorem routeStructure_iff (words marker : List Word) :
    routeStructure words marker = true ↔
      (∀ j : Nat, j < 64 → routeStructureAt words j = true)
      ∧ (∀ m ∈ markerEntries marker, m.id ≠ 0 →
          (routeEntryOf ((words.drop (20 * m.junction.toNat)).take 20)).defined = true) := by
  rw [routeStructure, Bool.and_eq_true, List.all_eq_true, List.all_eq_true]
  refine and_congr (by simp) (forall₂_congr fun m _ => ?_)
  by_cases h : m.id = 0
  · simp [h]
  · simp [h, routeWords]

/-! ### The stages SETTLE and TABLE_CHECK (R50, R51) -/

/-- The tables are checked in the order of their codes (R51). -/
theorem tableAfter_of_code {t u : TableId} (h : tableCode u = tableCode t + 1) : tableAfter t = some u := by
  cases t <;> cases u <;> first | rfl | exact absurd h (by decide)

theorem sumOk_iff (x : Table) : sumOk x = true ↔ tableSum x.words = x.ref ∧ x.faulty = false := by
  simp [sumOk, sumMatches]

section
variable {p : Part}

/-- A cycle start in SETTLE counts, and the stage ends at the settle length (R50). -/
theorem stageCycle_settle (hst : p.cab.state = .activating) (hstage : p.cab.stage = .settle)
    (h : p.cab.count < p.cab.settleLength) :
    stageCycle p = { p with
      cab := if p.cab.count + 1 = p.cab.settleLength then
          { p.cab with stage := .tableCheck, table := some .slot, count := 0 }
        else { p.cab with count := p.cab.count + 1 } } := by
  have hover : settleIsOver (countStage p) = decide (p.cab.count + 1 = p.cab.settleLength) := by
    have hle : p.cab.settleLength ≤ p.cab.count + 1 ↔ p.cab.count + 1 = p.cab.settleLength := by omega
    simp [settleIsOver, countStage, hst, hstage, hle]
  have hcycle : stageCycle p =
      if settleIsOver (countStage p) = true then settleEnds (countStage p) else countStage p := by
    simp only [stageCycle, hstage]
  rw [hcycle, hover]
  by_cases he : p.cab.count + 1 = p.cab.settleLength
  · simp [he, settleEnds, countStage]
  · simp [he, countStage]

theorem stageCycle_tableCheck {t : TableId} (hstage : p.cab.stage = .tableCheck)
    (ht : p.cab.table = some t) : stageCycle p = checkTable t p := by
  simp [stageCycle, hstage, ht]

variable {t : TableId}

theorem checkTable_structure (h : structureOk p.tables t = false) :
    checkTable t p = activationFails .structure .tableCheck (some t) p := by
  simp [checkTable, h]

theorem checkTable_sum (h : structureOk p.tables t = true) (hs : sumOk (tableAt p.tables t) = false) :
    checkTable t p = activationFails .sum .tableCheck (some t) p := by
  simp [checkTable, h, hs]

theorem checkTable_next (h : structureOk p.tables t = true) (hs : sumOk (tableAt p.tables t) = true)
    {u : TableId} (hu : tableAfter t = some u) :
    checkTable t p = { p with cab := { p.cab with table := some u } } := by
  simp [checkTable, h, hs, hu]

theorem checkTable_last (h : structureOk p.tables t = true) (hs : sumOk (tableAt p.tables t) = true)
    (hu : tableAfter t = none) :
    checkTable t p = { p with cab := { p.cab with stage := .brakeTest, table := none, count := 0 } } := by
  simp [checkTable, h, hs, hu]

end

/-- Settles O25: the two stages, then the structural check of each table. -/
theorem settleAndTableCheckEndInTurn : Obligations.SettleAndTableCheckEndInTurn := by
  refine ⟨fun s hst hstage => ⟨fun h => ?_, fun h => ⟨?_, ?_⟩⟩, fun p t hst hstage ht => ?_, fun ts => ?_⟩
  · exact when_true (by simp [settleIsOver, hst, hstage, h])
  · exact when_false (by simp [settleIsOver, hst, hstage, h])
  · exact stageCycle_settle hst hstage h
  · intro sound
    rw [stageCycle_tableCheck hstage ht]
    refine ⟨fun h => ?_, fun h hs => ?_, fun h hs => ⟨fun u hu => ?_, fun hr => ?_⟩⟩
    · rw [checkTable_structure h]
      exact activationFails_ended _ _ _ (.refl p)
    · rw [checkTable_sum h (by rwa [← Bool.not_eq_true, sumOk_iff])]
      exact activationFails_ended _ _ _ (.refl p)
    · exact checkTable_next h ((sumOk_iff _).mpr hs) (tableAfter_of_code hu)
    · exact checkTable_last h ((sumOk_iff _).mpr hs) (by rw [hr]; rfl)
  · refine ⟨slotStructure_iff _, wordsInRanges_iff _ _, ?_, cadenceStructure_iff _ _, markerStructure_iff _, ?_⟩
    · simp [structureOk, between_iff]
    · refine (routeStructure_iff _ _).trans (and_congr_left' (forall₂_congr fun j _ => ?_))
      exact routeStructureAt_iff _ j

end Sys2Proof.Machine
end

section
/-! ## The completion of a transfer (R170, R177): O44

A committed change is made in the table, presented to the blocks (`changedPart`), and then presented to an
activation (`tableChanged`). -/

namespace Sys2Proof.Machine

set_option Elab.async false

/-! ### The staging buffer -/

/-- From `a` to `b` the staging buffer, the lock sequence, DEPOT and the envelope pointer stand. -/
structure SameBuffer (a b : TableStore) : Prop where
  staging : b.staging = a.staging
  front : b.front = a.front
  back : b.back = a.back
  armed : b.armed = a.armed
  depot : b.depot = a.depot
  pointer : b.pointer = a.pointer
  field : b.field = a.field
  held : b.held = a.held

theorem SameBuffer.refl (a : TableStore) : SameBuffer a a := ⟨rfl, rfl, rfl, rfl, rfl, rfl, rfl, rfl⟩

theorem putTable_sameBuffer (ts : TableStore) (t : TableId) (x : Table) : SameBuffer ts (putTable ts t x) := by
  cases t <;> exact ⟨rfl, rfl, rfl, rfl, rfl, rfl, rfl, rfl⟩

theorem advanceStaging_busy {ts : TableStore} {x : Transfer} (h : ts.staging = .busy x) :
    advanceStaging ts = { ts with staging := .free } := by
  simp only [advanceStaging, h]

theorem advanceStaging_pending {ts : TableStore} {x y : Transfer} (h : ts.staging = .pending x y) :
    advanceStaging ts = { ts with front := ts.back, back := ts.front, staging := .busy y } := by
  simp only [advanceStaging, h]

/-- The staging buffer alone moves on. -/
theorem advanceStaging_eq (ts : TableStore) :
    advanceStaging ts = { ts with
      front := (advanceStaging ts).front
      back := (advanceStaging ts).back
      staging := (advanceStaging ts).staging } := by
  unfold advanceStaging
  split <;> rfl

section
variable (ts : TableStore)

@[simp] theorem advanceStaging_slot : (advanceStaging ts).slot = ts.slot := by rw [advanceStaging_eq]
@[simp] theorem advanceStaging_param : (advanceStaging ts).param = ts.param := by rw [advanceStaging_eq]
@[simp] theorem advanceStaging_envelope : (advanceStaging ts).envelope = ts.envelope := by
  rw [advanceStaging_eq]
@[simp] theorem advanceStaging_armed : (advanceStaging ts).armed = ts.armed := by rw [advanceStaging_eq]
@[simp] theorem advanceStaging_depot : (advanceStaging ts).depot = ts.depot := by rw [advanceStaging_eq]
@[simp] theorem advanceStaging_pointer : (advanceStaging ts).pointer = ts.pointer := by
  rw [advanceStaging_eq]
@[simp] theorem advanceStaging_field : (advanceStaging ts).field = ts.field := by rw [advanceStaging_eq]
@[simp] theorem advanceStaging_held : (advanceStaging ts).held = ts.held := by rw [advanceStaging_eq]
@[simp] theorem advanceStaging_envelopeValid : (advanceStaging ts).envelopeValid = ts.envelopeValid := by
  rw [advanceStaging_eq]

end

theorem tableAt_advanceStaging (ts : TableStore) (t : TableId) :
    tableAt (advanceStaging ts) t = tableAt ts t := by
  rw [advanceStaging_eq]
  cases t <;> rfl

/-! ### What the rows and the validity mark are read from -/

theorem doorsHold_congr {p q : Part} (stop : p.stop = q.stop) (slots : p.slots = q.slots)
    (slot : p.tables.slot = q.tables.slot) (param : p.tables.param = q.tables.param) :
    doorsHold p = doorsHold q := by
  rw [Bool.eq_iff_iff, ← not_iff_not, Bool.not_eq_true, Bool.not_eq_true]
  simp only [doorsHold_false_iff, hasFn, doorStale, zoneMask, Machine.param, recordAt, stop, slots, slot, param]

/-- The LINE and DOORS rows as a change to PARAM has set them (R73, R133), read on a part that has the same
rows, stop unit and records and the same SLOT and PARAM tables. -/
theorem rows_of_param_change {base : CapTable} {c q : Part}
    (h : c.caps = { base with line := lineCap c, doors := if doorsHold c then some 0 else none })
    (caps : q.caps = c.caps) (stop : q.stop = c.stop) (slots : q.slots = c.slots)
    (slot : q.tables.slot = c.tables.slot) (param : q.tables.param = c.tables.param) :
    q.caps.line = lineCap q
      ∧ (q.caps.doors = none ∨ q.caps.doors = some 0)
      ∧ (q.caps.doors = none ↔ ∃ d, q.stop.door = some d ∧ hasFn q .doorStatus = true
          ∧ (recordAt q d.source).age ≤ doorStale q
          ∧ (∀ z : Fin 8, (zoneMask q).getLsbD z.val = true → d.closed.getLsbD z.val = true)
          ∧ d.released = 0)
      ∧ q.caps = { base with line := q.caps.line, doors := q.caps.doors } := by
  have hcap : lineCap q = lineCap c := by simp only [lineCap, Machine.param, param]
  rw [← hcap, ← doorsHold_congr stop slots slot param, ← caps] at h
  have row : q.caps.doors = if doorsHold q then some 0 else none := congrArg CapTable.doors h
  refine ⟨congrArg CapTable.line h, ?_, ?_, ?_⟩
  · rw [row]
    exact (ite_eq_or_eq _ _ _).symm
  · rw [← doorsHold_false_iff, row]
    simp
  · rw [h]

theorem envelopeInOrder_congr {p q : Part} (param : p.tables.param = q.tables.param)
    (envelope : p.tables.envelope = q.tables.envelope) : EnvelopeInOrder p ↔ EnvelopeInOrder q := by
  simp only [EnvelopeInOrder, Machine.param, param, envelope]

/-! ### A change presented to an activation (R52) -/

theorem tableChanged_of_not_activating {p : Part} (h : p.cab.state ≠ .activating) (t : TableId) :
    tableChanged t p = p :=
  if_neg fun hc => h hc.1

/-- The records, the tables and the rows do not decide whether an activation fails, and of them a failure
changes the SPEED_LOCK and DEPARTURE rows alone. -/
theorem tableChanged_elsewhere (t : TableId) (p : Part) (slots : SlotEngine) (tables : TableStore)
    (caps : CapTable) :
    tableChanged t { p with slots := slots, tables := tables, caps := caps } = { tableChanged t p with
      slots := slots
      tables := tables
      caps := if p.cab.state = .activating ∧ hasPassed p t = true then
          { caps with speedLock := none, departure := none } else caps } := by
  by_cases h : p.cab.state = .activating ∧ hasPassed p t = true
  · have hfails : tableChanged t p = activationFails .tableChanged p.cab.stage (some t) p := if_pos h
    rw [hfails, if_pos h]
    exact if_pos h
  · have hstands : tableChanged t p = p := if_neg h
    rw [hstands, if_neg h]
    exact if_neg h

theorem tableChanged_caps (t : TableId) (p : Part) :
    (tableChanged t p).caps = if p.cab.state = .activating ∧ hasPassed p t = true then
      { p.caps with speedLock := none, departure := none } else p.caps :=
  congrArg Part.caps (tableChanged_elsewhere t p p.slots p.tables p.caps)

/-- An activation that fails leaves the line, the junction and stop units and the response queue. -/
theorem tableChanged_rest (t : TableId) (p : Part) :
    (tableChanged t p).node = p.node ∧ (tableChanged t p).line = p.line
      ∧ (tableChanged t p).junction = p.junction ∧ (tableChanged t p).stop = p.stop
      ∧ (tableChanged t p).mgmt.queue = p.mgmt.queue := by
  unfold tableChanged
  split <;> exact ⟨rfl, rfl, rfl, rfl, rfl⟩

/-! ### A change presented to the other blocks (R35, R73, R91, R133) -/

theorem presentChange_slot_eq (i : Nat) (p : Part) :
    presentChange .slot i p = { p with slots := (presentChange .slot i p).slots } := by
  unfold presentChange clearEntryRecord
  dsimp only
  split <;> rfl

/-- The change is presented to the slot engine, the LINE and DOORS rows and the validity mark. -/
theorem presentChange_eq (t : TableId) (i : Nat) (p : Part) :
    presentChange t i p = { p with
      slots := (presentChange t i p).slots
      caps := (presentChange t i p).caps
      tables := { p.tables with envelopeValid := (presentChange t i p).tables.envelopeValid } } := by
  cases t with
  | slot =>
    rw [presentChange_slot_eq]
  | param =>
    simp only [presentChange, testDoors_eq]
    rfl
  | _ => rfl

theorem presentChange_slots {t : TableId} (h : t ≠ .slot) (i : Nat) (p : Part) :
    (presentChange t i p).slots = p.slots := by
  cases t with
  | slot => exact absurd rfl h
  | param => simp [presentChange, testDoors_eq]
  | _ => rfl

/-- The record of the SLOT entry changed is cleared, and no other (R35). -/
theorem recordAt_presentChange (i : Nat) (p : Part) (j : Fin 82) :
    recordAt (presentChange .slot i p) j = if j.val = i then SlotRecord.cleared else recordAt p j := by
  by_cases hi : i < 82
  · have hclear : presentChange .slot i p = putRecord ⟨i, hi⟩ SlotRecord.cleared p := dif_pos hi
    rw [hclear]
    by_cases hj : j.val = i
    · rw [if_pos hj, show j = ⟨i, hi⟩ from Fin.ext hj, recordAt_putRecord_self]
    · rw [if_neg hj, recordAt_putRecord_ne fun e => hj (congrArg Fin.val e).symm]
  · have hstands : presentChange .slot i p = p := dif_neg hi
    rw [hstands, if_neg fun hj : j.val = i => hi (hj ▸ j.isLt)]

theorem presentChange_caps {t : TableId} (h : t ≠ .param) (i : Nat) (p : Part) :
    (presentChange t i p).caps = p.caps := by
  cases t with
  | param => exact absurd rfl h
  | slot =>
    rw [presentChange_slot_eq]
  | _ => rfl

/-- A change to PARAM gives the LINE row its line_cap and tests the DOORS row (R73, R133). -/
theorem presentChange_param_caps (i : Nat) (p : Part) :
    (presentChange .param i p).caps = { p.caps with
      line := lineCap p
      doors := if doorsHold p then some 0 else none } := by
  have hdoors : doorsHold (markEnvelope (setRow .line (lineCap p) p)) = doorsHold p :=
    doorsHold_congr rfl rfl rfl rfl
  simp only [presentChange, testDoors_eq, hdoors]
  rfl

/-- A change to PARAM or ENVELOPE recomputes the validity mark (R91). -/
theorem presentChange_envelopeValid {t : TableId} (h : t = .param ∨ t = .envelope) (i : Nat) (p : Part) :
    (presentChange t i p).tables.envelopeValid = true ↔ EnvelopeInOrder p := by
  rcases h with rfl | rfl
  · simp only [presentChange, testDoors_eq]
    exact (envelopeIsValid_iff _).trans (envelopeInOrder_congr rfl rfl)
  · exact envelopeIsValid_iff p

theorem presentChange_envelopeValid_ne {t : TableId} (hp : t ≠ .param) (he : t ≠ .envelope) (i : Nat)
    (p : Part) : (presentChange t i p).tables.envelopeValid = p.tables.envelopeValid := by
  cases t with
  | param => exact absurd rfl hp
  | envelope => exact absurd rfl he
  | slot =>
    rw [presentChange_slot_eq]
  | _ => rfl

/-! ### A committed change (R168, R170) -/

/-- The part with an entry's image in its table, before the change is presented to any block. -/
def writtenPart (t : TableId) (i : Nat) (image : List Word) (p : Part) : Part :=
  { p with tables := putTable p.tables t (committed t i image (tableAt p.tables t)) }

section
variable (t : TableId) (i : Nat) (image : List Word) (p : Part)

/-- A committed change is what the blocks make of it, with an activation that fails or not as it was. -/
theorem commit_eq :
    commit t i image p = { tableChanged t p with
      slots := (presentChange t i (writtenPart t i image p)).slots
      tables := { (writtenPart t i image p).tables with
        envelopeValid := (presentChange t i (writtenPart t i image p)).tables.envelopeValid }
      caps := if p.cab.state = .activating ∧ hasPassed p t = true then
          { (presentChange t i (writtenPart t i image p)).caps with speedLock := none, departure := none }
        else (presentChange t i (writtenPart t i image p)).caps } := by
  rw [← tableChanged_elsewhere]
  show tableChanged t (presentChange t i (writtenPart t i image p)) = _
  rw [presentChange_eq]
  rfl

theorem tableAt_commit_self :
    tableAt (commit t i image p).tables t = committed t i image (tableAt p.tables t) := by
  rw [commit_eq]
  cases t <;> rfl

theorem tableAt_commit_ne {t u : TableId} (h : t ≠ u) (i : Nat) (image : List Word) (p : Part) :
    tableAt (commit t i image p).tables u = tableAt p.tables u := by
  rw [commit_eq, ← tableAt_putTable_ne h p.tables (committed t i image (tableAt p.tables t))]
  cases u <;> rfl

theorem commit_sameBuffer : SameBuffer p.tables (commit t i image p).tables := by
  obtain ⟨staging, front, back, armed, depot, pointer, field, held⟩ :=
    putTable_sameBuffer p.tables t (committed t i image (tableAt p.tables t))
  rw [commit_eq]
  exact ⟨staging, front, back, armed, depot, pointer, field, held⟩

/-- The cab, the traction and sound units and the flags are as the activation leaves them (R52). -/
theorem commit_activation :
    (commit t i image p).cab = (tableChanged t p).cab
      ∧ (commit t i image p).traction = (tableChanged t p).traction
      ∧ (commit t i image p).sound = (tableChanged t p).sound
      ∧ (commit t i image p).mgmt.flags = (tableChanged t p).mgmt.flags := by
  rw [commit_eq]
  exact ⟨rfl, rfl, rfl, rfl⟩

/-- The line, the junction and stop units and the response queue stand. -/
theorem commit_rest :
    (commit t i image p).node = p.node ∧ (commit t i image p).line = p.line
      ∧ (commit t i image p).junction = p.junction ∧ (commit t i image p).stop = p.stop
      ∧ (commit t i image p).mgmt.queue = p.mgmt.queue := by
  rw [commit_eq]
  exact tableChanged_rest t p

theorem commit_slots {t : TableId} (h : t ≠ .slot) (i : Nat) (image : List Word) (p : Part) :
    (commit t i image p).slots = p.slots := by
  rw [commit_eq]
  exact presentChange_slots h i _

theorem recordAt_commit_slot {t : TableId} (h : t = .slot) (i : Nat) (image : List Word) (p : Part)
    (j : Fin 82) :
    recordAt (commit t i image p) j = if j.val = i then SlotRecord.cleared else recordAt p j := by
  subst h
  rw [commit_eq]
  exact recordAt_presentChange i _ j

/-- A change to another table than PARAM leaves the rows to the activation. -/
theorem commit_caps {t : TableId} (h : t ≠ .param) (i : Nat) (image : List Word) (p : Part) :
    (commit t i image p).caps = (tableChanged t p).caps := by
  rw [commit_eq, tableChanged_caps, presentChange_caps h]
  rfl

/-- A change to PARAM sets the LINE and DOORS rows besides (R73, R133). -/
theorem commit_param_caps {t : TableId} (h : t = .param) (i : Nat) (image : List Word) (p : Part) :
    (commit t i image p).caps = { (tableChanged .param p).caps with
      line := lineCap (commit t i image p)
      doors := if doorsHold (commit t i image p) then some 0 else none } := by
  subst h
  have hcap : lineCap (commit .param i image p) = lineCap (writtenPart .param i image p) := by
    rw [commit_eq]
    rfl
  have hdoors : doorsHold (commit .param i image p) = doorsHold (writtenPart .param i image p) := by
    obtain ⟨-, -, -, stop, -⟩ := commit_rest .param i image p
    refine doorsHold_congr stop ?_ ?_ ?_
    · exact commit_slots (by decide) i image p
    · rw [commit_eq]
    · rw [commit_eq]
  rw [hcap, hdoors, tableChanged_caps, commit_eq, presentChange_param_caps]
  split <;> rfl

theorem commit_envelopeValid {t : TableId} (h : t = .param ∨ t = .envelope) (i : Nat) (image : List Word)
    (p : Part) : (commit t i image p).tables.envelopeValid = true ↔ EnvelopeInOrder (commit t i image p) := by
  have horder : EnvelopeInOrder (commit t i image p) ↔ EnvelopeInOrder (writtenPart t i image p) := by
    refine envelopeInOrder_congr ?_ ?_
    · rw [commit_eq]
    · rw [commit_eq]
  rw [horder, commit_eq]
  exact presentChange_envelopeValid h i _

theorem commit_envelopeValid_ne {t : TableId} (hp : t ≠ .param) (he : t ≠ .envelope) (i : Nat)
    (image : List Word) (p : Part) :
    (commit t i image p).tables.envelopeValid = p.tables.envelopeValid := by
  rw [commit_eq]
  show (presentChange t i (writtenPart t i image p)).tables.envelopeValid = _
  rw [presentChange_envelopeValid_ne hp he]
  cases t <;> rfl

end

/-! ### The answer (R177) -/

/-- The answer of a completion, with a result. -/
def completionAnswer (x : Transfer) (result : Result) (p : Part) : Response :=
  { node := p.node, code := 4, tag := x.tag, result := result, data := [0, 0, 0, 0, 0] }

section
variable {x : Transfer} {p : Part}

/-- A gate that fails leaves all but the answer. -/
theorem completeOne_refused (hroom : p.mgmt.queue.length < 4) {result : Result}
    (h : writeGate x.table x.index p = some result) :
    completeOne x p = { p with
      mgmt := { p.mgmt with queue := p.mgmt.queue ++ [completionAnswer x result p] } } := by
  simp only [completeOne, h]
  exact respond_of_room hroom _ _ _ _

theorem completeOne_committed (hroom : p.mgmt.queue.length < 4) (h : writeGate x.table x.index p = none) :
    completeOne x p =
      let c := commit x.table x.index (p.tables.back.take (entrySize x.table x.index)) p
      { c with mgmt := { c.mgmt with queue := p.mgmt.queue ++ [completionAnswer x .ok p] } } := by
  obtain ⟨node, -, -, -, queue⟩ := commit_rest x.table x.index
    (p.tables.back.take (entrySize x.table x.index)) p
  simp only [completeOne, h]
  rw [respond_of_room (by rw [queue]; exact hroom), queue, node]
  rfl

theorem completeOne_sameBuffer : SameBuffer p.tables (completeOne x p).tables := by
  unfold completeOne
  split
  · rw [respond_tables]
    exact .refl _
  · rw [respond_tables]
    exact commit_sameBuffer _ _ _ _

/-- Whether a gate fails or not, a completion leaves the other tables, the line, the junction and stop units,
the records where the table is not SLOT, and the cab outside ACTIVATING. -/
theorem completeOne_frame (hroom : p.mgmt.queue.length < 4) :
    (∀ t, t ≠ x.table → tableAt (completeOne x p).tables t = tableAt p.tables t)
      ∧ (x.table ≠ .slot → (completeOne x p).slots = p.slots)
      ∧ (p.cab.state ≠ .activating → (completeOne x p).cab = p.cab ∧ (completeOne x p).traction = p.traction
          ∧ (completeOne x p).sound = p.sound ∧ (x.table ≠ .param → (completeOne x p).caps = p.caps))
      ∧ (completeOne x p).line = p.line ∧ (completeOne x p).junction = p.junction
      ∧ (completeOne x p).stop = p.stop := by
  cases h : writeGate x.table x.index p with
  | some result =>
    rw [completeOne_refused hroom h]
    exact ⟨fun _ _ => rfl, fun _ => rfl, fun _ => ⟨rfl, rfl, rfl, fun _ => rfl⟩, rfl, rfl, rfl⟩
  | none =>
    rw [completeOne_committed hroom h]
    generalize p.tables.back.take (entrySize x.table x.index) = image
    obtain ⟨-, line, junction, stop, -⟩ := commit_rest x.table x.index image p
    refine ⟨fun t ht => tableAt_commit_ne (Ne.symm ht) _ _ p, fun hs => commit_slots hs _ _ p, fun hst => ?_,
      line, junction, stop⟩
    obtain ⟨cab, traction, sound, -⟩ := commit_activation x.table x.index image p
    rw [tableChanged_of_not_activating hst] at cab traction sound
    refine ⟨cab, traction, sound, fun hp => ?_⟩
    exact (commit_caps hp _ _ p).trans (by rw [tableChanged_of_not_activating hst])

end

theorem exec_transferCompletion {s : State} {x : Transfer} (h : outstanding s.part.tables = some x) :
    exec .transferCompletion s = .next { s with part := { completeOne x s.part with
      tables := advanceStaging (completeOne x s.part).tables } } := by
  have hcomplete : completeTransfer s.part = { completeOne x s.part with
      tables := advanceStaging (completeOne x s.part).tables } := by
    simp only [completeTransfer, h]
  rw [← hcomplete]
  exact when_true (by simp [h])

/-- Settles O44: the staging state moves on; then by the gates, a refusal or a committed change. -/
theorem transferCompletes : Obligations.TransferCompletes := by
  intro s
  refine ⟨fun h => when_false (by simp [h]), fun x hx hroom => ?_⟩
  rw [exec_transferCompletion hx]
  obtain ⟨staging, front, back, armed, depot, pointer, field, held⟩ :=
    completeOne_sameBuffer (x := x) (p := s.part)
  obtain ⟨others, slots, outside, line, junction, stop⟩ := completeOne_frame (x := x) hroom
  refine ⟨_, rfl, fun b hb => ?_, fun b next hb => ?_, fun t ht => ?_, fun result hg => ?_, fun hg => ?_, slots,
    outside, ?_, ?_, ?_, ?_, ?_, line, junction, stop⟩
  · have hbusy := advanceStaging_busy (staging.trans hb)
    exact ⟨congrArg TableStore.staging hbusy, (congrArg TableStore.front hbusy).trans front,
      (congrArg TableStore.back hbusy).trans back⟩
  · have hpending := advanceStaging_pending (staging.trans hb)
    exact ⟨congrArg TableStore.staging hpending, (congrArg TableStore.front hpending).trans back,
      (congrArg TableStore.back hpending).trans front⟩
  · exact (tableAt_advanceStaging _ t).trans (others t ht)
  · rw [completeOne_refused hroom hg]
    exact ⟨tableAt_advanceStaging _ _, advanceStaging_envelopeValid _, rfl, rfl, rfl,
      rfl, rfl, rfl, rfl⟩
  · rw [completeOne_committed hroom hg]
    generalize s.part.tables.back.take (entrySize x.table x.index) = image
    have self := (tableAt_advanceStaging _ x.table).trans (tableAt_commit_self x.table x.index image s.part)
    obtain ⟨cab, traction, sound, flags⟩ := commit_activation x.table x.index image s.part
    have order := envelopeInOrder_congr (p := { s.part with
      tables := advanceStaging (commit x.table x.index image s.part).tables })
      (q := commit x.table x.index image s.part) (advanceStaging_param _) (advanceStaging_envelope _)
    refine ⟨congrArg Table.words self, ?_, congrArg Table.faulty self,
      (congrArg Table.lock self).trans (writeGate_none_unlocked hg), rfl, fun ht => ⟨fun i hi => ?_, fun i hi => ?_⟩,
      fun ht => ?_, fun ht => commit_caps ht _ _ _, fun ht => ?_, fun hp he => ?_, cab, traction, sound,
      flags⟩
    · exact (congrArg Table.ref self).trans (congrArg tableSum (congrArg Table.words self)).symm
    · exact (recordAt_commit_slot ht _ _ _ i).trans (if_pos hi)
    · exact (recordAt_commit_slot ht _ _ _ i).trans (if_neg hi)
    · exact rows_of_param_change (commit_param_caps ht x.index image s.part) rfl rfl rfl
        (advanceStaging_slot _) (advanceStaging_param _)
    · exact ((advanceStaging_envelopeValid _).symm ▸ commit_envelopeValid ht _ _ _).trans order.symm
    · exact (advanceStaging_envelopeValid _).trans (commit_envelopeValid_ne hp he _ _ _)
  · exact (advanceStaging_armed _).trans armed
  · exact (advanceStaging_depot _).trans depot
  · exact (advanceStaging_pointer _).trans pointer
  · exact (advanceStaging_field _).trans field
  · exact (advanceStaging_held _).trans held

end Sys2Proof.Machine
end

section
/-! ## What the other blocks leave to the cab authority (R48)

The stop, junction, traction and sound units change neither the cab authority's state nor its row. -/

namespace Sys2Proof.Machine

set_option Elab.async false

/-- From `p` to `q` the cab authority and the CAB row stand. -/
structure CabFrame (p q : Part) : Prop where
  cab : q.cab = p.cab
  row : q.caps.cab = p.caps.cab

namespace CabFrame

theorem refl (p : Part) : CabFrame p p := ⟨rfl, rfl⟩

theorem trans {p q r : Part} (a : CabFrame p q) (b : CabFrame q r) : CabFrame p r :=
  ⟨b.cab.trans a.cab, b.row.trans a.row⟩

/-- An update of another block's state. -/
theorem update {p q : Part} (cab : q.cab = p.cab := by rfl) (row : q.caps.cab = p.caps.cab := by rfl) :
    CabFrame p q := ⟨cab, row⟩

/-- A frame through either branch of a test. -/
theorem ite {p a b : Part} {c : Prop} [Decidable c] (ha : CabFrame p a) (hb : CabFrame p b) :
    CabFrame p (if c then a else b) := by
  split
  · exact ha
  · exact hb

theorem foldl {α : Type} {f : Part → α → Part} (h : ∀ p x, CabFrame p (f p x)) (xs : List α) (p : Part) :
    CabFrame p (xs.foldl f p) := by
  induction xs generalizing p with
  | nil => exact .refl p
  | cons x xs ih => exact (h p x).trans (ih _)

end CabFrame

/-! ### Shared operations and the sound unit -/

theorem respond_cabFrame (tag code : Byte) (x : Result) (ws : List Word) (p : Part) :
    CabFrame p (respond tag code x ws p) :=
  .update (row := by rw [respond_caps]) (cab := respond_cab _ _ _ _ p)

theorem countHorn_cabFrame (wasOn : Bool) (p : Part) : CabFrame p (countHorn wasOn p) :=
  .ite (.ite .update (.ite .update .update)) (.refl p)

theorem soundCycle_cabFrame (p : Part) : CabFrame p (soundCycle p) := .trans .update (countHorn_cabFrame _ _)

theorem endChannelPhase_cabFrame (ch : Channel) (p : Part) : CabFrame p (endChannelPhase ch p) := by
  unfold endChannelPhase
  split
  · exact .update
  · exact .refl p

theorem endChannelStep_cabFrame (ch : Channel) (p : Part) : CabFrame p (endChannelStep ch p) := by
  unfold endChannelStep
  split
  · exact .update
  · exact .refl p

/-! ### Stop unit -/

theorem testDoors_cabFrame (p : Part) : CabFrame p (testDoors p) := .ite .update .update

theorem changeToRunning_cabFrame (p : Part) : CabFrame p (changeToRunning p) := .ite .update .update

theorem tripPhase_cabFrame (p : Part) : CabFrame p (tripPhase p) := by
  unfold tripPhase
  split
  · exact .ite .update (.refl p)
  · exact .ite (changeToRunning_cabFrame p) (.refl p)

theorem doorStore_cabFrame (source : Fin 82) (r : SlotRecord) (p : Part) :
    CabFrame p (doorStore source r p) := by
  have judged : ∀ q, CabFrame q (advanceAssistances (clearDoorOpen (tripPhase q))) := fun q =>
    (tripPhase_cabFrame q).trans .update
  exact .trans (.ite (.trans .update (judged _)) .update) (testDoors_cabFrame _)

theorem stopPush_cabFrame (z : Fin 8) (p : Part) : CabFrame p (stopPush z p) :=
  .ite (.ite .update .update) (.ite .update (.refl p))

theorem assistancePush_cabFrame (z : Fin 8) (p : Part) : CabFrame p (assistancePush z p) :=
  (stopPush_cabFrame z p).trans .update

theorem buttonStore_cabFrame (r : SlotRecord) (p : Part) : CabFrame p (buttonStore r p) :=
  .ite (.ite (.trans .update (assistancePush_cabFrame _ _))
    (.ite (.trans .update (stopPush_cabFrame _ _)) .update)) .update

/-! ### Junction unit -/

theorem appendRelease_cabFrame (x : Release) (p : Part) : CabFrame p (appendRelease x p) :=
  .ite .update .update

theorem closeRecord_cabFrame (pos : Fin 4) (r : JunctionRecord) (p : Part) :
    CabFrame p (closeRecord pos r p) := by
  have withdrawn : CabFrame p (withdrawRow (.junction pos) p) := .update
  unfold closeRecord
  dsimp only
  split
  · exact (withdrawn.trans (appendRelease_cabFrame _ _)).trans .update
  · exact .update

theorem openRecord_cabFrame (pos : Fin 4) (j : Six) (e : RouteEntry) (p : Part) :
    CabFrame p (openRecord pos j e p) := .ite .update .update

theorem requestMarker_cabFrame (j : Six) (e : RouteEntry) (p : Part) : CabFrame p (requestMarker j e p) := by
  unfold requestMarker
  split
  · exact .refl p
  · split
    · exact .update
    · exact openRecord_cabFrame _ _ _ p

theorem commitMarker_cabFrame (j : Six) (p : Part) : CabFrame p (commitMarker j p) := by
  unfold commitMarker
  split
  · exact .update
  · split
    · exact .refl p
    · split <;> exact .update

theorem clearMarker_cabFrame (j : Six) (p : Part) : CabFrame p (clearMarker j p) := by
  unfold clearMarker
  split
  · exact .refl p
  · split
    · exact .refl p
    · exact closeRecord_cabFrame _ _ p

theorem newMarker_cabFrame (id : Nat) (p : Part) : CabFrame p (newMarker id p) := by
  unfold newMarker
  split
  · exact .update
  · refine .ite ?_ .update
    split
    · exact requestMarker_cabFrame _ _ p
    · exact commitMarker_cabFrame _ p
    · exact clearMarker_cabFrame _ p

theorem markerStore_cabFrame (r : SlotRecord) (p : Part) : CabFrame p (markerStore r p) := by
  unfold markerStore
  dsimp only
  split
  · exact .update
  · exact .ite .update (.ite (.trans .update (newMarker_cabFrame _ _))
      (.trans .update (newMarker_cabFrame _ _)))

theorem selectFor_cabFrame (p : Part) (pos : Fin 4) : CabFrame p (selectFor p pos) := by
  unfold selectFor
  split
  · exact .refl p
  · refine .ite (.refl p) ?_
    split
    · exact .update
    · exact .update
    · exact .ite .update (.refl p)
    · exact .ite .update (.refl p)
    · exact .ite .update (.refl p)

theorem select_cabFrame (x : BitVec 4) (p : Part) : CabFrame p (select x p) :=
  .ite .update (.trans .update (.foldl selectFor_cabFrame _ _))

theorem reportRequested_cabFrame (x : PointReport) (pos : Fin 4) (r : JunctionRecord) (route : Route)
    (p : Part) : CabFrame p (reportRequested x pos r route p) := .ite .update .update

theorem reportAt_cabFrame (x : PointReport) (p : Part) (pos : Fin 4) : CabFrame p (reportAt x p pos) := by
  unfold reportAt
  split
  · exact .refl p
  · dsimp only
    split
    · exact .refl p
    · refine .ite ?_ (.refl p)
      split
      · exact reportRequested_cabFrame _ _ _ _ p
      · exact .ite .update (.refl p)
      · exact .ite .update (.refl p)
      · exact .refl p

theorem pointStore_cabFrame (r : SlotRecord) (p : Part) : CabFrame p (pointStore r p) :=
  .ite (.foldl (reportAt_cabFrame _) _ p) (.refl p)

theorem timeOut_cabFrame (pos : Fin 4) (p : Part) : CabFrame p (timeOut pos p) := by
  unfold timeOut
  split
  · exact .update
  · exact .refl p

theorem countRequest_cabFrame (p : Part) (pos : Fin 4) : CabFrame p (countRequest p pos) := by
  unfold countRequest
  split
  · exact .ite (.ite (.trans .update (timeOut_cabFrame _ _)) .update) (.refl p)
  · exact .refl p

theorem addDistance_cabFrame (delta : Nat) (p : Part) (pos : Fin 4) :
    CabFrame p (addDistance delta p pos) := by
  unfold addDistance
  split
  · exact .ite (.ite (.trans .update (closeRecord_cabFrame _ _ _)) .update) (.refl p)
  · exact .refl p

theorem takeDistance_cabFrame (delta : Nat) (p : Part) : CabFrame p (takeDistance delta p) :=
  .ite (.refl p) (.foldl (addDistance_cabFrame delta) _ p)

theorem junctionAck_cabFrame (p : Part) : CabFrame p (junctionAck p) := .ite .update (.refl p)

theorem junctionCycle_cabFrame (p : Part) : CabFrame p (junctionCycle p) := by
  have sampledAck : CabFrame p (sampleJunctionAck p) :=
    .ite (.trans .update (junctionAck_cabFrame _)) .update
  exact (sampledAck.trans (.ite (select_cabFrame 0 _) (.refl _))).trans (.foldl countRequest_cabFrame _ _)

theorem discard_cabFrame (p : Part) (pos : Fin 4) : CabFrame p (discard p pos) := by
  unfold discard
  split
  · exact .refl p
  · exact (CabFrame.ite (appendRelease_cabFrame _ p) (.refl p)).trans .update

theorem junctionTeardown_cabFrame (p : Part) : CabFrame p (junctionTeardown p) := by
  have discarded := CabFrame.foldl discard_cabFrame positions p
  unfold junctionTeardown
  generalize positions.foldl discard p = q at discarded
  exact discarded.trans .update

/-! ### Traction unit -/

theorem speedStore_cabFrame (r : SlotRecord) (p : Part) : CabFrame p (speedStore r p) :=
  .trans .update (takeDistance_cabFrame _ _)

theorem speedGoesStale_cabFrame (p : Part) : CabFrame p (speedGoesStale p) :=
  .trans .update (.ite .update (.refl _))

theorem updateLock_cabFrame (p : Part) : CabFrame p (updateLock p) :=
  .ite (.ite (.refl p) (speedGoesStale_cabFrame p)) (.ite (.ite .update .update) .update)

theorem speedInput_cabFrame (p : Part) : CabFrame p (speedInput p) :=
  .ite (.refl p) (.trans (.ite .update (.refl p)) (updateLock_cabFrame _))

theorem tractionInputs_cabFrame (cs : CycleStart) (p : Part) : CabFrame p (tractionInputs cs p) :=
  .ite .update (.trans .update (speedInput_cabFrame _))

theorem judgeEpisode_cabFrame (p : Part) : CabFrame p (judgeEpisode p) :=
  .ite (.ite .update (.ite .update (.refl p))) (.refl p)

theorem evaluate_cabFrame (p : Part) : CabFrame p (evaluate p) := by
  have judged : CabFrame p (judgeEnvelope (judgeInputs p)) := .trans .update (.ite .update (.refl _))
  exact (judged.trans (judgeEpisode_cabFrame _)).trans .update

theorem tractionActivates_cabFrame (p : Part) : CabFrame p (tractionActivates p) :=
  .trans (.ite (.refl p) .update) (evaluate_cabFrame _)

theorem tractionResumes_cabFrame (p : Part) : CabFrame p (tractionResumes p) := by
  unfold tractionResumes
  split
  · exact .refl p
  · exact .update

/-! ### Table store and slot engine -/

theorem presentChange_cabFrame (t : TableId) (i : Nat) (p : Part) : CabFrame p (presentChange t i p) := by
  refine .update (cab := by rw [presentChange_eq]) (row := ?_)
  by_cases h : t = .param
  · subst h
    rw [presentChange_param_caps]
  · rw [presentChange_caps h]

theorem closeSlot_cabFrame (p : Part) : CabFrame p (closeSlot p) := by
  rw [closeSlot_eq]
  exact .update

theorem openSlot_cabFrame (slot : Six) (p : Part) : CabFrame p (openSlot slot p) := by
  have h := openSlot_sendingFrame slot p
  exact .update (cab := h.cab) (row := by rw [h.caps]; rfl)

end Sys2Proof.Machine
end

section
/-! ## The cab authority's invariant through every command (O57)

`CabOk` is read from four fields of the cab authority and the CAB row. It says something else of each cab
state, so it is taken apart, and put together again after a change of state, by the state. -/

namespace Sys2Proof.Machine

set_option Elab.async false

/-! ### What the invariant says of each cab state (R48) -/

/-- An update of anything that the invariant does not read. -/
theorem CabOk.congr {p q : Part} (h : CabOk p) (state : q.cab.state = p.cab.state := by rfl)
    (pending : q.cab.pending = p.cab.pending := by rfl) (stage : q.cab.stage = p.cab.stage := by rfl)
    (table : q.cab.table = p.cab.table := by rfl) (row : q.caps.cab = p.caps.cab := by rfl) : CabOk q := by
  unfold CabOk at h ⊢
  rwa [state, pending, stage, table, row]

theorem CabFrame.cabOk {p q : Part} (f : CabFrame p q) (h : CabOk p) : CabOk q :=
  h.congr (by rw [f.cab]) (by rw [f.cab]) (by rw [f.cab]) (by rw [f.cab]) f.row

section
variable {p : Part}

theorem cabOk_inactive_iff (h : p.cab.state = .inactive) :
    CabOk p ↔ p.cab.stage = .none ∧ p.cab.table = none ∧ p.cab.pending = .none ∧ p.caps.cab = some 0 := by
  simp +contextual [CabOk, h]

theorem cabOk_activating_iff (h : p.cab.state = .activating) :
    CabOk p ↔ p.cab.stage ≠ .none ∧ (p.cab.table.isSome = true ↔ p.cab.stage = .tableCheck)
      ∧ p.cab.pending = .none ∧ p.caps.cab = some 0 := by
  simp [CabOk, h]

theorem cabOk_active_iff (h : p.cab.state = .active) :
    CabOk p ↔ p.cab.stage = .none ∧ p.cab.table = none
      ∧ ((p.cab.pending = .none ∧ p.caps.cab = none)
        ∨ ((p.cab.pending = .hold ∨ p.cab.pending = .off) ∧ p.caps.cab = some 0)) := by
  cases hp : p.cab.pending <;> simp +contextual [CabOk, h, hp]

theorem cabOk_hold_iff (h : p.cab.state = .hold) :
    CabOk p ↔ p.cab.stage = .none ∧ p.cab.table = none ∧ p.cab.pending = .none ∧ p.caps.cab = some 0 := by
  simp +contextual [CabOk, h]

theorem cabOk_stabled_iff (h : p.cab.state = .stabled) :
    CabOk p ↔ p.cab.stage = .none ∧ p.cab.table = none
      ∧ (p.cab.pending = .none ∨ p.cab.pending = .wake ∨ p.cab.pending = .drive) ∧ p.caps.cab = some 0 := by
  simp +contextual [CabOk, h]

theorem CabOk.inactive (state : p.cab.state = .inactive) (stage : p.cab.stage = .none)
    (table : p.cab.table = none) (pending : p.cab.pending = .none) (row : p.caps.cab = some 0) : CabOk p :=
  (cabOk_inactive_iff state).mpr ⟨stage, table, pending, row⟩

theorem CabOk.activating (state : p.cab.state = .activating) (stage : p.cab.stage ≠ .none)
    (table : p.cab.table.isSome = true ↔ p.cab.stage = .tableCheck) (pending : p.cab.pending = .none)
    (row : p.caps.cab = some 0) : CabOk p :=
  (cabOk_activating_iff state).mpr ⟨stage, table, pending, row⟩

theorem CabOk.active (state : p.cab.state = .active) (stage : p.cab.stage = .none)
    (table : p.cab.table = none) (pending : p.cab.pending = .none) (row : p.caps.cab = none) : CabOk p :=
  (cabOk_active_iff state).mpr ⟨stage, table, .inl ⟨pending, row⟩⟩

/-- ACTIVE with an exit that waits. -/
theorem CabOk.waiting (state : p.cab.state = .active) (stage : p.cab.stage = .none)
    (table : p.cab.table = none) (pending : p.cab.pending = .hold ∨ p.cab.pending = .off)
    (row : p.caps.cab = some 0) : CabOk p :=
  (cabOk_active_iff state).mpr ⟨stage, table, .inr ⟨pending, row⟩⟩

theorem CabOk.stabled (state : p.cab.state = .stabled) (stage : p.cab.stage = .none)
    (table : p.cab.table = none)
    (pending : p.cab.pending = .none ∨ p.cab.pending = .wake ∨ p.cab.pending = .drive)
    (row : p.caps.cab = some 0) : CabOk p :=
  (cabOk_stabled_iff state).mpr ⟨stage, table, pending, row⟩

/-- Outside ACTIVE the CAB row is at 0. -/
theorem CabOk.row (h : CabOk p) (hs : p.cab.state ≠ .active) : p.caps.cab = some 0 := by
  obtain ⟨-, -, -, row⟩ := h
  rw [row, if_neg fun k => hs k.1]

/-- Outside ACTIVATING there is no stage and no table. -/
theorem CabOk.noStage (h : CabOk p) (hs : p.cab.state ≠ .activating) :
    p.cab.stage = .none ∧ p.cab.table = none := by
  obtain ⟨stage, table, -⟩ := h
  have none : p.cab.stage = .none := stage.mpr hs
  exact ⟨none, by simpa [none] using table⟩

end

/-! ### Activation (R49 to R56) -/

/-- An activation that ends, or a failed one, leaves INACTIVE with the row as it was. -/
theorem activationEnds_cabOk {p : Part} (row : p.caps.cab = some 0) : CabOk (activationEnds p) :=
  CabOk.inactive rfl rfl rfl rfl row

theorem activationFails_cabOk {p : Part} (row : p.caps.cab = some 0) (cause : FaultCause) (stage : Stage)
    (table : Option TableId) : CabOk (activationFails cause stage table p) :=
  activationEnds_cabOk row

theorem beginActivation_cabOk {p : Part} (row : p.caps.cab = some 0) (n : Nat) :
    CabOk (beginActivation n p) :=
  (tractionActivates_cabFrame _).cabOk (.activating rfl nofun (by simp) rfl row)

/-- The attempt is made in INACTIVE. -/
theorem attemptIfDue_cabOk {p : Part} (h : CabOk p) : CabOk (attemptIfDue p) := by
  unfold attemptIfDue attempt
  split
  · next due =>
    have inactive : p.cab.state = .inactive := by
      simp only [attemptIsDue, Bool.and_eq_true, beq_iff_eq] at due
      exact due.1.1
    split
    · exact beginActivation_cabOk (h.row (by simp [inactive])) _
    · exact h.congr
  · exact h

/-- An exit from STABLED leads to INACTIVE or to ACTIVATING (R65). -/
theorem leaveStabledIfDue_cabOk {p : Part} (h : CabOk p) : CabOk (leaveStabledIfDue p) := by
  unfold leaveStabledIfDue leaveStabled
  split
  · next due =>
    have stabled : p.cab.state = .stabled := by
      simp only [stabledExitIsDue, Bool.and_eq_true, beq_iff_eq] at due
      exact due.1.1
    obtain ⟨stage, table, -, row⟩ := (cabOk_stabled_iff stabled).mp h
    dsimp only
    split
    · split
      · exact beginActivation_cabOk row _
      · exact CabOk.inactive rfl stage table rfl row
    · exact CabOk.inactive rfl stage table rfl row
  · exact h

theorem settleEnds_cabOk {p : Part} (h : CabOk p) (hs : p.cab.state = .activating) : CabOk (settleEnds p) := by
  obtain ⟨-, -, pending, row⟩ := (cabOk_activating_iff hs).mp h
  exact CabOk.activating hs nofun (by simp [settleEnds]) pending row

/-- A table checked is one of TABLE_CHECK. -/
theorem checkTable_cabOk {p : Part} (h : CabOk p) (hs : p.cab.state = .activating)
    (hstage : p.cab.stage = .tableCheck) (t : TableId) : CabOk (checkTable t p) := by
  obtain ⟨-, -, pending, row⟩ := (cabOk_activating_iff hs).mp h
  unfold checkTable
  split
  · exact activationFails_cabOk row _ _ _
  · split
    · exact activationFails_cabOk row _ _ _
    · split
      · exact CabOk.activating hs (by simp [hstage]) (by simp [hstage]) pending row
      · exact CabOk.activating hs nofun (by simp) pending row

theorem conflictInActive_cabFrame (v : CabState) (p : Part) : CabFrame p (conflictInActive v p) :=
  .ite (.refl p) .update

/-- The entry to ACTIVE withdraws the row (R54). -/
theorem enterActive_cabOk (p : Part) : CabOk (enterActive p) := by
  unfold enterActive
  refine (conflictInActive_cabFrame _ _).cabOk ?_
  refine (cabOk_active_iff (by dsimp only; split <;> rfl)).mpr ?_
  dsimp only
  split <;> exact ⟨rfl, rfl, .inl ⟨rfl, rfl⟩⟩

theorem stageCycle_cabOk {p : Part} (h : CabOk p) (hs : p.cab.state = .activating) : CabOk (stageCycle p) := by
  have counted : CabOk (countStage p) := h.congr
  cases hstage : p.cab.stage with
  | none => simpa only [stageCycle, hstage] using h
  | settle =>
    simp only [stageCycle, hstage]
    split
    · exact settleEnds_cabOk counted hs
    · exact counted
  | tableCheck =>
    cases ht : p.cab.table with
    | none => simpa only [stageCycle, hstage, ht] using h
    | some t =>
      rw [stageCycle_tableCheck hstage ht]
      exact checkTable_cabOk h hs hstage t
  | brakeTest =>
    simp only [stageCycle, hstage]
    split
    · exact activationFails_cabOk (counted.row (by simp [countStage, hs])) _ _ _
    · exact counted
  | speedLock =>
    simp only [stageCycle, hstage]
    split
    · split
      · exact enterActive_cabOk _
      · exact counted
    · exact h.congr (stage := hstage.symm)

theorem brakeTestStore_cabOk (r : SlotRecord) {p : Part} (h : CabOk p) : CabOk (brakeTestStore r p) := by
  unfold brakeTestStore
  split
  · next hc =>
    obtain ⟨hs, hstage, -⟩ := hc
    obtain ⟨-, table, pending, row⟩ := (cabOk_activating_iff hs).mp h
    exact CabOk.activating hs nofun (by simpa [hstage] using table) pending row
  · exact h

theorem tableChanged_cabOk (t : TableId) {p : Part} (h : CabOk p) : CabOk (tableChanged t p) := by
  unfold tableChanged
  split
  · next hc => exact activationFails_cabOk (h.row (by simp [hc.1])) _ _ _
  · exact h

theorem presentLoss_cabOk (x : Option LossChange) {p : Part} (h : CabOk p) : CabOk (presentLoss x p) := by
  unfold presentLoss
  split
  · exact h
  · split
    · next hs => exact activationFails_cabOk (h.row (by simp [hs])) _ _ _
    · exact h
  · exact leaveStabledIfDue_cabOk (attemptIfDue_cabOk h)

/-! ### ACTIVE, HOLD and teardown (R58 to R62) -/

/-- Teardown leads to INACTIVE with the row at 0. -/
theorem teardown_cabOk (p : Part) : CabOk (teardown p) := by
  have released : ∀ q, CabFrame q (tractionTeardown (soundOff (stopTeardown q))) := fun _ => .update
  have torn : ∀ q, CabFrame q (tractionTeardown (soundOff (stopTeardown (junctionTeardown q)))) := fun q =>
    (junctionTeardown_cabFrame q).trans (released _)
  unfold teardown
  exact (torn _).cabOk (CabOk.inactive rfl rfl rfl rfl rfl)

/-- HOLD is entered with the row at 0. -/
theorem enterHold_cabOk {p : Part} (stage : p.cab.stage = .none) (table : p.cab.table = none) :
    CabOk (enterHold p) :=
  (cabOk_hold_iff rfl).mpr ⟨stage, table, rfl, rfl⟩

/-- An exit is taken from ACTIVE, or none is. -/
theorem takeExit_cabOk {p : Part} (h : p.cab.pending ≠ .hold → p.cab.pending ≠ .off → CabOk p)
    (stage : p.cab.stage = .none) (table : p.cab.table = none) : CabOk (takeExit p) := by
  unfold takeExit
  split
  · exact enterHold_cabOk stage table
  · exact teardown_cabOk p
  all_goals
    next hp => exact h (by simp [hp]) (by simp [hp])

theorem exitWaits_active {p : Part} (h : exitWaits p = true) : p.cab.state = .active := by
  simp only [exitWaits, Bool.and_eq_true, beq_iff_eq] at h
  exact h.1

theorem takeExit_of_waiting_cabOk {p : Part} (h : CabOk p) (hw : exitWaits p = true) : CabOk (takeExit p) := by
  obtain ⟨stage, table⟩ := h.noStage (by simp [exitWaits_active hw])
  exact takeExit_cabOk (fun _ _ => h) stage table

theorem presentEvaluation_cabOk {p : Part} (h : CabOk p) : CabOk (presentEvaluation p) := by
  unfold presentEvaluation
  split
  · next hw => exact takeExit_of_waiting_cabOk h (Bool.and_eq_true _ _ ▸ hw).1
  · exact h

/-- HOLD or OFF in ACTIVE is taken at once, waits with the row at 0, or replaces the exit that waits (R58). -/
theorem keyLeavesDrive_cabOk {p : Part} (h : CabOk p) (hs : p.cab.state = .active) {x : PendingExit}
    (hx : x = .hold ∨ x = .off) : CabOk (keyLeavesDrive x p) := by
  obtain ⟨stage, table, pending⟩ := (cabOk_active_iff hs).mp h
  unfold keyLeavesDrive
  dsimp only
  split
  · split
    · refine takeExit_cabOk (fun hhold hoff => ?_) stage table
      rcases hx with rfl | rfl
      · exact absurd rfl hhold
      · exact absurd rfl hoff
    · exact CabOk.waiting hs stage table hx rfl
  · next hp =>
    have row : p.caps.cab = some 0 := by
      rcases pending with ⟨hnone, -⟩ | ⟨-, row⟩
      · exact absurd hnone hp
      · exact row
    exact CabOk.waiting hs stage table hx row

theorem keyReturnsToDrive_cabOk {p : Part} (h : CabOk p) (hs : p.cab.state = .active) :
    CabOk (keyReturnsToDrive p) := by
  obtain ⟨stage, table, -⟩ := (cabOk_active_iff hs).mp h
  unfold keyReturnsToDrive
  split
  · exact h
  · exact CabOk.active hs stage table rfl rfl

theorem returnFromHold_cabOk {p : Part} (h : CabOk p) (hs : p.cab.state = .hold) : CabOk (returnFromHold p) := by
  obtain ⟨stage, table, pending, -⟩ := (cabOk_hold_iff hs).mp h
  exact (tractionResumes_cabFrame _).cabOk (CabOk.active rfl stage table pending rfl)

/-! ### The desk, the other cab and STABLED -/

theorem exitFor_of_ne_drive {key : Key} (h : key ≠ .drive) : exitFor key = .hold ∨ exitFor key = .off := by
  cases key with
  | off => exact .inr rfl
  | hold => exact .inl rfl
  | drive => exact absurd rfl h

theorem keyRecognised_cabOk (key : Key) {p : Part} (h : CabOk p) : CabOk (keyRecognised key p) := by
  unfold keyRecognised
  split
  · exact attemptIfDue_cabOk h.congr
  · next hs =>
    split
    · exact h
    · exact activationEnds_cabOk (h.row (by simp [hs]))
  · next hs =>
    split
    · exact keyReturnsToDrive_cabOk h hs
    · next hkey => exact keyLeavesDrive_cabOk h hs (exitFor_of_ne_drive hkey)
  · next hs =>
    split
    · exact returnFromHold_cabOk h hs
    · exact teardown_cabOk p
    · exact h
  · next hs =>
    obtain ⟨stage, table, -, row⟩ := (cabOk_stabled_iff hs).mp h
    split
    · exact leaveStabledIfDue_cabOk (CabOk.stabled hs stage table (.inr (.inr rfl)) row)
    · split
      · exact CabOk.stabled hs stage table (.inl rfl) row
      · exact h

theorem deskCycle_cabOk {p : Part} (h : CabOk p) : CabOk (deskCycle p) := by
  unfold deskCycle
  dsimp only
  split
  · exact keyRecognised_cabOk _ h.congr
  · exact h.congr

theorem viewChanged_cabOk (v : CabState) {p : Part} (h : CabOk p) : CabOk (viewChanged v p) := by
  unfold viewChanged
  split
  · next hs =>
    have yields : CabOk (activationYields p) := activationEnds_cabOk (h.row (by simp [hs]))
    split
    · exact yields
    · exact yields
    · split
      · exact yields
      · exact h
    · exact h
    · exact h
  · exact (conflictInActive_cabFrame v p).cabOk h
  · split
    · exact h
    · exact h.congr
  · exact h
  · exact h

theorem takeView_cabOk (v : CabState) {p : Part} (h : CabOk p) : CabOk (takeView v p) := by
  unfold takeView
  split
  · exact h
  · exact viewChanged_cabOk v h.congr

theorem scrubTable_cabOk (t : TableId) {p : Part} (h : CabOk p) : CabOk (scrubTable t p) :=
  h.congr

theorem scrubCycle_cabOk {p : Part} (h : CabOk p) : CabOk (scrubCycle p) := by
  have counted : CabOk { p with cab := { p.cab with scrubCount := min 4095 (p.cab.scrubCount + 1) } } :=
    h.congr
  unfold scrubCycle
  split
  · dsimp only
    split
    · exact leaveStabledIfDue_cabOk (scrubTable_cabOk _ counted)
    · split
      · exact h.congr
      · exact counted
  · exact h

/-! ### The table store and the management commands -/

theorem commit_cabOk (t : TableId) (i : Nat) (ws : List Word) {p : Part} (h : CabOk p) :
    CabOk (commit t i ws p) :=
  tableChanged_cabOk t ((presentChange_cabFrame t i _).cabOk h.congr)

theorem completeTransfer_cabOk {p : Part} (h : CabOk p) : CabOk (completeTransfer p) := by
  have one : ∀ x, CabOk (completeOne x p) := fun x => by
    unfold completeOne
    split
    · exact (respond_cabFrame _ _ _ _ p).cabOk h
    · exact (respond_cabFrame _ _ _ _ _).cabOk (commit_cabOk _ _ _ h)
  unfold completeTransfer
  split
  · exact h
  · next x _ => exact (one x).congr

theorem takeValues_cabOk (vs : List Word) {p : Part} (h : CabOk p) : CabOk (takeValues vs p) := by
  have one : ∀ v q, CabOk q → CabOk (takeValue v q) := fun v q hq => by
    unfold takeValue
    dsimp only
    split
    · exact hq.congr
    · exact hq.congr
    · exact (commit_cabOk _ _ _ hq).congr
  unfold takeValues
  induction vs generalizing p with
  | nil => exact h
  | cons v vs ih => exact ih (one v p h)

theorem envelopeData_cabOk (tag : Byte) (count : Nat) (values : List Word) {p : Part} (h : CabOk p) :
    CabOk (envelopeData tag count values p) := by
  unfold envelopeData
  split
  · exact (respond_cabFrame _ _ _ _ p).cabOk h
  · dsimp only
    split
    · exact (respond_cabFrame _ _ _ _ p).cabOk h
    · exact (respond_cabFrame _ _ _ _ _).cabOk (takeValues_cabOk _ h)

theorem stableCommand_cabOk (tag : Byte) {p : Part} (h : CabOk p) : CabOk (stableCommand tag p) := by
  unfold stableCommand
  split
  · next hs =>
    obtain ⟨stage, table, -, row⟩ := (cabOk_inactive_iff hs).mp h
    split
    · exact (respond_cabFrame _ _ _ _ p).cabOk h
    · exact (respond_cabFrame _ _ _ _ _).cabOk (CabOk.stabled rfl stage table (.inl rfl) row)
  · exact (respond_cabFrame _ _ _ _ p).cabOk h

theorem wakeCommand_cabOk (tag : Byte) {p : Part} (h : CabOk p) : CabOk (wakeCommand tag p) := by
  unfold wakeCommand
  split
  · next hs =>
    obtain ⟨stage, table, -, row⟩ := (cabOk_stabled_iff hs).mp h
    exact (respond_cabFrame _ _ _ _ _).cabOk
      (leaveStabledIfDue_cabOk (CabOk.stabled hs stage table (.inr (.inl rfl)) row))
  · exact (respond_cabFrame _ _ _ _ p).cabOk h

theorem cabOk_of_reset {p : Part} {strap : CabEnd} {lineCap : Nat} (cab : p.cab = CabAuthority.reset strap)
    (caps : p.caps = CapTable.reset lineCap) : CabOk p :=
  (cabOk_inactive_iff (by rw [cab]; rfl)).mpr
    ⟨by rw [cab]; rfl, by rw [cab]; rfl, by rw [cab]; rfl, by rw [caps]; rfl⟩

theorem restartCommand_cabOk (tag : Byte) (lines : Lines) {p : Part} (h : CabOk p) :
    CabOk (restartCommand tag lines p) := by
  have restarted : CabOk (respond tag 16 .ok [] (restart (withLines lines p))) :=
    (respond_cabFrame _ _ _ _ _).cabOk (cabOk_of_reset rfl rfl)
  unfold restartCommand
  split
  · exact restarted
  · exact restarted
  · exact (respond_cabFrame _ _ _ _ p).cabOk h
  · exact (respond_cabFrame _ _ _ _ p).cabOk h
  · exact (respond_cabFrame _ _ _ _ p).cabOk h

/-! ### The commands that leave the cab authority alone -/

theorem statusCommand_cabFrame (tag : Byte) (page : Word) (p : Part) :
    CabFrame p (statusCommand tag page p) := by
  unfold statusCommand
  split <;> exact respond_cabFrame _ _ _ _ p

theorem clearStatusCommand_cabFrame (tag : Byte) (p : Part) : CabFrame p (clearStatusCommand tag p) :=
  .trans .update (respond_cabFrame _ _ _ _ _)

theorem writeStage_cabFrame (tag : Byte) (offset count : Nat) (ws : List Word) (p : Part) :
    CabFrame p (writeStage tag offset count ws p) := by
  have written : CabFrame p (if count < 1 ∨ 5 < count ∨ 24 < offset + count then respond tag 3 .range [] p
      else respond tag 3 .ok [] { p with tables := { p.tables with
        front := overwrite p.tables.front offset (padTo count ws) } }) :=
    .ite (respond_cabFrame _ _ _ _ p) (.trans .update (respond_cabFrame _ _ _ _ _))
  unfold writeStage
  split
  · exact respond_cabFrame _ _ _ _ p
  · exact written
  · exact written

theorem stageTransfer_cabFrame (x : Transfer) (p : Part) : CabFrame p (stageTransfer x p) := by
  unfold stageTransfer
  split
  · exact .update
  · exact .update
  · exact respond_cabFrame _ _ _ _ p

theorem transfer_cabFrame (tag : Byte) (table index : Word) (p : Part) :
    CabFrame p (transfer tag table index p) := by
  unfold transfer
  split
  · exact respond_cabFrame _ _ _ _ p
  · split
    · exact respond_cabFrame _ _ _ _ p
    · exact stageTransfer_cabFrame _ p

theorem readEntryCommand_cabFrame (tag : Byte) (table index offset : Word) (p : Part) :
    CabFrame p (readEntryCommand tag table index offset p) := by
  unfold readEntryCommand
  split
  · exact respond_cabFrame _ _ _ _ p
  · exact .ite (respond_cabFrame _ _ _ _ p) (respond_cabFrame _ _ _ _ p)

theorem envelopePointer_cabFrame (tag : Byte) (breakpoint : Word) (p : Part) :
    CabFrame p (envelopePointer tag breakpoint p) := by
  unfold envelopePointer
  split
  · exact .trans .update (respond_cabFrame _ _ _ _ _)
  · exact respond_cabFrame _ _ _ _ p

theorem lockTable_cabFrame (t : TableId) (p : Part) : CabFrame p (lockTable t p).1 := by
  unfold lockTable
  split
  · exact .update
  · exact .update
  · exact .refl p

theorem unlockTable_cabFrame (t : TableId) (p : Part) : CabFrame p (unlockTable t p).1 := by
  unfold unlockTable
  split
  · exact .refl p
  · split
    · exact .refl p
    · exact .update
  · split
    · exact .refl p
    · split
      · exact .refl p
      · exact .update

theorem lockCommand_cabFrame {act : TableId → Part → Part × Result} (h : ∀ t p, CabFrame p (act t p).1)
    (tag code : Byte) (table : Word) (p : Part) : CabFrame p (lockCommand act tag code table p) := by
  unfold lockCommand
  split
  · exact respond_cabFrame _ _ _ _ p
  · exact (h _ p).trans (respond_cabFrame _ _ _ _ _)

theorem lockDownTable_cabFrame (t : TableId) (p : Part) : CabFrame p (lockDownTable t p).1 := .update

theorem lockSetupCommand_cabFrame (tag : Byte) (p : Part) : CabFrame p (lockSetupCommand tag p) :=
  .trans .update (respond_cabFrame _ _ _ _ _)

theorem unknownCommand_cabFrame (tag code : Byte) (p : Part) : CabFrame p (unknownCommand tag code p) :=
  respond_cabFrame _ _ _ _ p

theorem setRestrictionCommand_cabFrame (tag : Byte) (action value : Word) (p : Part) :
    CabFrame p (setRestrictionCommand tag action value p) :=
  .ite (.trans .update (respond_cabFrame _ _ _ _ _))
    (.ite (.trans .update (respond_cabFrame _ _ _ _ _)) (respond_cabFrame _ _ _ _ p))

theorem readRecordCommand_cabFrame (tag : Byte) (index page : Word) (p : Part) :
    CabFrame p (readRecordCommand tag index page p) := by
  unfold readRecordCommand
  split
  · dsimp only
    split
    · exact .trans .update (respond_cabFrame _ _ _ _ _)
    · exact respond_cabFrame _ _ _ _ p
  · exact respond_cabFrame _ _ _ _ p

/-! ### Acceptance (R172, R183) -/

theorem accept_cabOk (tag code : Byte) {take : Part → Part} (h : ∀ p, CabOk p → CabOk (take p)) {p : Part}
    (hp : CabOk p) : CabOk (accept tag code take p) := by
  rcases accept_cases tag code take p with ⟨-, e⟩ | ⟨-, -, e⟩ | ⟨-, -, e⟩ <;> rw [e]
  · exact hp
  · exact h p hp
  · exact (respond_cabFrame _ _ _ _ _).cabOk hp.congr

theorem accept_frame_cabOk (tag code : Byte) {take : Part → Part} (h : ∀ p, CabFrame p (take p)) {p : Part}
    (hp : CabOk p) : CabOk (accept tag code take p) :=
  accept_cabOk tag code (fun q hq => (h q).cabOk hq) hp

theorem acceptLock_frame_cabOk (tag code : Byte) {take : Part → Part} (h : ∀ p, CabFrame p (take p)) {p : Part}
    (hp : CabOk p) : CabOk (acceptLock tag code take p) := by
  rcases acceptLock_cases tag code take p with ⟨-, e⟩ | ⟨-, -, e⟩ | ⟨-, -, e⟩ <;> rw [e]
  · exact hp
  · exact (CabFrame.trans .update (h _)).cabOk hp
  · exact (respond_cabFrame _ _ _ _ _).cabOk hp.congr

theorem acceptCommand_cabOk (tag code : Byte) (ws : List Word) {p : Part} (h : CabOk p) :
    CabOk (acceptCommand tag code ws p) := by
  unfold acceptCommand
  dsimp only
  split
  · exact accept_frame_cabOk _ _ (statusCommand_cabFrame _ _) h
  · exact accept_frame_cabOk _ _ (clearStatusCommand_cabFrame _) h
  · exact accept_frame_cabOk _ _ (writeStage_cabFrame _ _ _ _) h
  · exact accept_frame_cabOk _ _ (transfer_cabFrame _ _ _) h
  · exact accept_frame_cabOk _ _ (readEntryCommand_cabFrame _ _ _ _) h
  · exact accept_frame_cabOk _ _ (envelopePointer_cabFrame _ _) h
  · exact accept_cabOk _ _ (fun _ => envelopeData_cabOk _ _ _) h
  · exact accept_frame_cabOk _ _ (lockSetupCommand_cabFrame _) h
  · exact acceptLock_frame_cabOk _ _ (lockCommand_cabFrame lockTable_cabFrame _ _ _) h
  · exact acceptLock_frame_cabOk _ _ (lockCommand_cabFrame unlockTable_cabFrame _ _ _) h
  · exact acceptLock_frame_cabOk _ _ (lockCommand_cabFrame lockDownTable_cabFrame _ _ _) h
  · exact accept_frame_cabOk _ _ (setRestrictionCommand_cabFrame _ _ _) h
  · exact accept_frame_cabOk _ _ (readRecordCommand_cabFrame _ _ _) h
  · exact accept_cabOk _ _ (fun _ => stableCommand_cabOk _) h
  · exact accept_cabOk _ _ (fun _ => wakeCommand_cabOk _) h
  · exact accept_cabOk _ _ (fun _ => restartCommand_cabOk _ _) h
  · exact accept_frame_cabOk _ _ (unknownCommand_cabFrame _ _) h

/-! ### Cells (R24, R25) -/

theorem deliver_cabOk (index : Fin 82) (fn : Fn) (kind : Kind) (r : SlotRecord) {p : Part} (h : CabOk p) :
    CabOk (deliver index fn kind r p) := by
  cases fn with
  | handle =>
    show CabOk (brakeTestStore r (handleRange r p))
    exact brakeTestStore_cabOk r h.congr
  | speed => exact (speedStore_cabFrame r p).cabOk h
  | marker => exact (markerStore_cabFrame r p).cabOk h
  | routeSelect => exact (CabFrame.trans .update (select_cabFrame _ _)).cabOk h
  | pointStatus => exact (pointStore_cabFrame r p).cabOk h
  | stopButton => exact (buttonStore_cabFrame r p).cabOk h
  | doorStatus => exact (doorStore_cabFrame index r p).cabOk h
  | otherCab => exact takeView_cabOk _ h
  | mgmtIn =>
    unfold deliver mgmtStore
    dsimp only
    split
    · exact acceptCommand_cabOk _ _ _ h
    · exact h
  | _ => exact h

theorem observeCell_cabOk (g : Governing) (lane : Lane) (c : Cell) {p : Part} (h : CabOk p) :
    CabOk (observeCell g lane c p) := by
  have stored : ∀ q, CabOk q → CabOk (storeCell g lane c q) := fun q hq =>
    deliver_cabOk _ _ _ _ hq.congr
  have marked : ∀ x, CabOk { p with slots := { p.slots with mark := some x } } := fun x =>
    h.congr
  unfold observeCell pairCell
  split
  · exact h
  · dsimp only
    split
    · split
      · exact marked _
      · exact stored _ (marked _)
    · split
      · exact h
      · exact h.congr
  · split
    · exact stored p h
    · exact h
  · split
    · exact stored p h
    · exact h

theorem disposeCell_cabOk (g : Governing) (lane : Lane) (words : List Word) (c : Cell) (valid : Bool) {p : Part}
    (h : CabOk p) : CabOk (disposeCell g lane words c valid p).1 := by
  have outcome : ∀ o, CabOk (setOutcome g lane o p) := fun o => h.congr
  have observed : ∀ o, CabOk (observeCell g lane c (setOutcome g lane o p)) := fun o =>
    observeCell_cabOk g lane c (outcome o)
  unfold disposeCell
  dsimp only
  split
  · exact outcome _
  · split
    · exact observed _
    · exact outcome _
  · split
    · split
      · exact observed _
      · exact outcome _
    · exact outcome _
  · split
    · exact observed _
    · exact outcome _
  · exact h.congr

theorem handOver_cabOk (lane : Lane) (words : List Word) (c : Cell) (valid : Bool) {p : Part} (h : CabOk p) :
    CabOk (handOver lane words c valid p).1 := by
  unfold handOver
  split
  · exact disposeCell_cabOk _ lane words c valid h
  · exact h

theorem drive_cabFrame (l : Lane) (cell : List Word) (p : Part) : CabFrame p (drive l cell p) := by
  cases l <;> exact .update

theorem driveOut_cabOk (lane : Lane) {x : Part × Option (List Word)} (h : CabOk x.1) :
    CabOk (driveOut lane x) := by
  unfold driveOut
  split
  · exact (drive_cabFrame _ _ _).cabOk h
  · exact h

/-! ### Cycle starts and arrivals (R1, R9) -/

theorem doWork_cabOk (cs : CycleStart) (w : Work) {p : Part} (h : CabOk p) : CabOk (doWork cs w p) := by
  cases w with
  | lineLoss => exact presentLoss_cabOk _ h
  | cabDesk => exact deskCycle_cabOk h
  | cabView => exact takeView_cabOk _ h
  | cabStage =>
    unfold doWork
    dsimp only
    split
    · next hc => exact stageCycle_cabOk h hc.2
    · exact h
  | cabScrub => exact scrubCycle_cabOk h
  | traction =>
    have inputs : CabOk (tractionInputs cs p) := (tractionInputs_cabFrame cs p).cabOk h
    unfold doWork tractionCycle
    dsimp only
    split
    · exact presentEvaluation_cabOk ((evaluate_cabFrame _).cabOk inputs)
    · exact inputs
  | junction => exact (junctionCycle_cabFrame p).cabOk h
  | stop => exact (testDoors_cabFrame p).cabOk h
  | sound => exact (soundCycle_cabFrame p).cabOk h
  | tableStore => exact completeTransfer_cabOk h.congr

theorem presentCycle_cabOk (loss : Option LossChange) (order : List Work) {p : Part} (h : CabOk p) :
    CabOk (presentCycle loss order p) :=
  presentCycle_keeps CabOk loss order p h.congr
    fun cs w _ hq => doWork_cabOk cs w hq

theorem endCycle_cabFrame (p : Part) : CabFrame p (endCycle p) := (closeSlot_cabFrame p).trans .update

theorem beaconStart_cabOk (lane : Lane) (cycle : Six) (order : List Work) {p : Part} (h : CabOk p) :
    CabOk (beaconStart lane cycle order p) := by
  have ended := ((endCycle_cabFrame p).trans (.update (q := setFlagIf (slips cycle p) .cycleSlip _))).cabOk h
  exact presentCycle_cabOk _ _ ((CabFrame.trans .update (openSlot_cabFrame 0 _)).cabOk ended)

theorem substituteStart_cabOk (order : List Work) {p : Part} (h : CabOk p) : CabOk (substituteStart order p) :=
  presentCycle_cabOk _ _ (((endCycle_cabFrame p).trans .update).cabOk h)

theorem beaconArrival_cabOk (lane : Lane) (cycle : Six) (order : List Work) {p : Part} (h : CabOk p) :
    CabOk (beaconArrival lane cycle order p) := by
  have started := beaconStart_cabOk lane cycle order h
  unfold beaconArrival classifyBeacon
  split
  · split
    · split
      · exact h.congr
      · exact started
    · split
      · exact h.congr
      · split
        · exact h.congr
        · exact started
  · exact started

theorem cellArrivalIn_cabOk (lane : Lane) (words : List Word) (c : Cell) (intact : Bool) {p : Part}
    (h : CabOk p) : CabOk (cellArrivalIn lane words c intact p) := by
  have counted : CabFrame p (countError lane p) := .update
  unfold cellArrivalIn slotArrival
  split
  · split
    · exact (counted.trans (drive_cabFrame _ _ _)).cabOk h
    · exact driveOut_cabOk lane (handOver_cabOk _ _ _ _
        ((CabFrame.trans (.ite (.refl p) counted) .update).cabOk h))
  · exact ((CabFrame.ite (.refl p) counted).trans (drive_cabFrame _ _ _)).cabOk h

theorem arrive_cabOk (lane : Lane) (words : List Word) (order : List Work) {p : Part} (h : CabOk p) :
    CabOk (arrive lane words order p) := by
  unfold arrive
  split
  · dsimp only
    split
    · exact (drive_cabFrame _ _ _).cabOk (beaconArrival_cabOk lane _ order h)
    · exact cellArrivalIn_cabOk lane words _ _ h
  · exact cellArrivalIn_cabOk lane words _ _ h

theorem slotTimer_cabFrame (p : Part) : CabFrame p (slotTimer p) := by
  unfold slotTimer
  split
  · exact (closeSlot_cabFrame p).trans (openSlot_cabFrame _ _)
  · exact .refl p

/-! ### Steps -/

theorem onPart_cabOk {f : Part → Part} (hf : ∀ p, CabOk p → CabOk (f p)) {s t : State} (h : CabOk s.part)
    (e : (Host.Outcome.next (s.onPart f) : Host.Outcome State Fault Refusal) = .next t) : CabOk t.part := by
  cases e
  exact hf _ h

/-- An event inside a block, where its condition holds. -/
theorem when_cabOk {c : Part → Bool} {f : Part → Part} (hf : ∀ p, c p = true → CabOk p → CabOk (f p))
    {s t : State} (h : CabOk s.part) (e : when c f s = .next t) : CabOk t.part := by
  refine onPart_cabOk (fun p hp => ?_) h e
  split
  · next hc => exact hf p hc hp
  · exact hp

theorem when_frame_cabOk {c : Part → Bool} {f : Part → Part} (hf : ∀ p, CabFrame p (f p)) {s t : State}
    (h : CabOk s.part) (e : when c f s = .next t) : CabOk t.part :=
  when_cabOk (fun p _ hp => (hf p).cabOk hp) h e

/-- Every command keeps the cab authority's invariant. -/
theorem exec_cabOk (c : Instr) {s t : State} (h : CabOk s.part) (e : exec c s = .next t) : CabOk t.part := by
  cases c with
  | powerOnReset lines =>
    refine onPart_cabOk (fun p _ => ?_) h e
    split <;> exact cabOk_of_reset rfl rfl
  | cellArrival lane words lines order =>
    refine onPart_cabOk (fun p hp => ?_) h e
    split
    · exact arrive_cabOk lane words order hp.congr
    · exact hp
  | substituteCycleStart lines order =>
    refine onPart_cabOk (fun p hp => ?_) h e
    split
    · exact substituteStart_cabOk order hp.congr
    · exact hp
  | slotOpening => exact onPart_cabOk (fun p hp => (slotTimer_cabFrame p).cabOk hp) h e
  | laneDown => exact onPart_cabOk (fun _ hp => presentLoss_cabOk _ hp.congr) h e
  | laneUp => exact onPart_cabOk (fun _ hp => presentLoss_cabOk _ hp.congr) h e
  | otherCabTimeout => exact when_cabOk (fun _ _ hp => takeView_cabOk _ hp) h e
  | activationAttempt =>
    refine when_cabOk (fun p due hp => ?_) h e
    simpa only [attemptIfDue, due, if_true] using attemptIfDue_cabOk hp
  | settleComplete =>
    refine when_cabOk (fun p isOver hp => settleEnds_cabOk hp ?_) h e
    simp only [settleIsOver, Bool.and_eq_true, beq_iff_eq] at isOver
    exact isOver.1.1
  | brakeTimeout =>
    refine when_cabOk (fun p isOver hp => activationFails_cabOk (hp.row ?_) _ _ _) h e
    simp only [brakeTestIsOver, Bool.and_eq_true, beq_iff_eq] at isOver
    simp [isOver.1.1]
  | entryToActive => exact when_cabOk (fun p _ _ => enterActive_cabOk p) h e
  | pendingExitTaken =>
    refine when_cabOk (fun p due hp => takeExit_of_waiting_cabOk hp ?_) h e
    simp only [exitIsDue, Bool.and_eq_true] at due
    exact due.1
  | scrubPassBegin => exact when_cabOk (fun _ _ hp => scrubTable_cabOk .slot hp.congr) h e
  | stabledExit =>
    refine when_cabOk (fun p due hp => ?_) h e
    simpa only [leaveStabledIfDue, due, if_true] using leaveStabledIfDue_cabOk hp
  | speedSourceStale => exact when_frame_cabOk speedGoesStale_cabFrame h e
  | speedLockAcquired => exact when_frame_cabOk (fun _ => .update) h e
  | selectionTimeout => exact when_frame_cabOk (select_cabFrame 0) h e
  | requestTimeout pos => exact when_frame_cabOk (timeOut_cabFrame pos) h e
  | doorStatusStale => exact when_frame_cabOk (fun _ => .update) h e
  | phaseEnd ch => exact when_frame_cabOk (endChannelPhase_cabFrame ch) h e
  | stepEnd ch => exact when_frame_cabOk (endChannelStep_cabFrame ch) h e
  | hornMinReached => exact when_frame_cabOk (fun _ => .update) h e
  | hornStuck => exact when_frame_cabOk (fun _ => .update) h e
  | transferCompletion => exact when_cabOk (fun _ _ => completeTransfer_cabOk) h e
  | status tag page =>
    exact onPart_cabOk (fun _ => accept_frame_cabOk _ _ (statusCommand_cabFrame _ _)) h e
  | clearStatus tag =>
    exact onPart_cabOk (fun _ => accept_frame_cabOk _ _ (clearStatusCommand_cabFrame _)) h e
  | writeStage tag offset count words =>
    exact onPart_cabOk (fun _ => accept_frame_cabOk _ _ (writeStage_cabFrame _ _ _ _)) h e
  | transfer tag table index =>
    exact onPart_cabOk (fun _ => accept_frame_cabOk _ _ (transfer_cabFrame _ _ _)) h e
  | readEntry tag table index offset =>
    exact onPart_cabOk (fun _ => accept_frame_cabOk _ _ (readEntryCommand_cabFrame _ _ _ _)) h e
  | envelopePointer tag breakpoint =>
    exact onPart_cabOk (fun _ => accept_frame_cabOk _ _ (envelopePointer_cabFrame _ _)) h e
  | envelopeData tag count values =>
    exact onPart_cabOk (fun _ => accept_cabOk _ _ fun _ => envelopeData_cabOk _ _ _) h e
  | lockSetup tag => exact onPart_cabOk (fun _ => accept_frame_cabOk _ _ (lockSetupCommand_cabFrame _)) h e
  | lock tag table =>
    exact onPart_cabOk (fun _ => acceptLock_frame_cabOk _ _ (lockCommand_cabFrame lockTable_cabFrame _ _ _)) h e
  | unlock tag table =>
    exact onPart_cabOk (fun _ => acceptLock_frame_cabOk _ _ (lockCommand_cabFrame unlockTable_cabFrame _ _ _)) h e
  | lockDown tag table =>
    exact onPart_cabOk
      (fun _ => acceptLock_frame_cabOk _ _ (lockCommand_cabFrame lockDownTable_cabFrame _ _ _)) h e
  | setRestriction tag action value =>
    exact onPart_cabOk (fun _ => accept_frame_cabOk _ _ (setRestrictionCommand_cabFrame _ _ _)) h e
  | readRecord tag index page =>
    exact onPart_cabOk (fun _ => accept_frame_cabOk _ _ (readRecordCommand_cabFrame _ _ _)) h e
  | stable tag => exact onPart_cabOk (fun _ => accept_cabOk _ _ fun _ => stableCommand_cabOk _) h e
  | wake tag => exact onPart_cabOk (fun _ => accept_cabOk _ _ fun _ => wakeCommand_cabOk _) h e
  | restart tag lines => exact onPart_cabOk (fun _ => accept_cabOk _ _ fun _ => restartCommand_cabOk _ _) h e
  | unknownCommand tag code =>
    exact onPart_cabOk (fun _ => accept_frame_cabOk _ _ (unknownCommand_cabFrame _ _)) h e

/-- Settles O57: by cases on the command at the front of the queue. -/
theorem stepKeepsTheCabRow : Obligations.StepKeepsTheCabRow := by
  intro s t h e
  unfold step at e
  split at e
  · cases e
    exact h
  · next c rest _ => exact exec_cabOk (s := { s with pending := rest }) c h e

end Sys2Proof.Machine
end

section
/-! ## STABLE and WAKE, the activation attempt, and the other-cab view (O50, O24, O23) -/

namespace Sys2Proof.Machine

set_option Elab.async false

/-! ### Leaving STABLED (R65) -/

section
variable {p : Part}

/-- A WAKE is taken where no scrub pass runs. -/
theorem leaveStabledIfDue_wake (hs : p.cab.state = .stabled) (hp : p.cab.pending = .wake)
    (hpass : p.cab.scrubPass = none) :
    leaveStabledIfDue p = { p with cab := { p.cab with state := .inactive, pending := .none } } := by
  simp [leaveStabledIfDue, stabledExitIsDue, leaveStabled, hs, hp, hpass]

/-- While a scrub pass runs the exit waits. -/
theorem leaveStabledIfDue_scrubbing (hpass : p.cab.scrubPass ≠ none) : leaveStabledIfDue p = p := by
  have running : p.cab.scrubPass.isNone = false := by simpa [Option.isSome_iff_ne_none] using hpass
  simp [leaveStabledIfDue, stabledExitIsDue, running]

end

/-- Settles O50: by the cab state, and for WAKE by the scrub pass. -/
theorem stableAndWakeMoveTheCab : Obligations.StableAndWakeMoveTheCab := by
  intro s tag h
  have stable : exec (.stable tag) s = .next { s with part := stableCommand tag s.part } := by
    rw [← accept_of_takes h 14 (stableCommand tag)]
    rfl
  have wake : exec (.wake tag) s = .next { s with part := wakeCommand tag s.part } := by
    rw [← accept_of_takes h 15 (wakeCommand tag)]
    rfl
  refine ⟨?_, ?_⟩
  · rw [stable, stableCommand, ite_not]
    rfl
  · rw [wake, wakeCommand]
    by_cases hs : s.part.cab.state = .stabled
    · rw [if_pos hs, if_neg (not_not.mpr hs)]
      by_cases hpass : s.part.cab.scrubPass = none
      · rw [if_pos hpass, leaveStabledIfDue_wake (p := { s.part with cab := { s.part.cab with pending := .wake } })
          hs rfl hpass]
      · rw [if_neg hpass, leaveStabledIfDue_scrubbing
          (p := { s.part with cab := { s.part.cab with pending := .wake } }) hpass]
    · rw [if_neg hs, if_pos hs]

/-! ### The activation attempt (R49, R78, R84, R94) -/

/-- What an activation begins with in the traction unit: D at -1000, and the SPEED_LOCK row where the speed
lock is UNLOCKED (R78, R84, R94). -/
theorem beginActivation_traction (n : Nat) (p : Part) :
    (beginActivation n p).traction.dPrev = -1000
      ∧ (beginActivation n p).traction.demand = {
          d := -1000
          reason := .activating
          source := capSource (beginActivation n p)
          p := permittedSpeed (beginActivation n p)
          v := p.traction.vEff }
      ∧ (beginActivation n p).caps = (if p.traction.locked then p.caps
          else { p.caps with speedLock := some (creepCap p) })
      ∧ (beginActivation n p).mgmt.queue = p.mgmt.queue := by
  unfold beginActivation tractionActivates
  rw [evaluate_of_not_active (by split <;> simp)]
  split <;> exact ⟨rfl, rfl, rfl, rfl⟩

theorem viewIsClear_iff (v : CabState) : viewIsClear v = true ↔ v = .inactive ∨ v = .stabled := by
  cases v <;> simp [viewIsClear]

theorem exec_activationAttempt (s : State) :
    exec .activationAttempt s = .next { s with part := attemptIfDue s.part } := rfl

theorem attemptIsDue_iff (p : Part) :
    attemptIsDue p = true ↔
      p.cab.state = .inactive ∧ p.cab.driveRequest = true ∧ lineLost p = false := by
  simp [attemptIsDue, and_assoc]

/-- Settles O24: by whether the attempt is due, and the view. -/
theorem attemptReadsTheOtherCab : Obligations.AttemptReadsTheOtherCab := by
  intro s
  rw [exec_activationAttempt]
  refine ⟨fun hs hreq hline => ?_, fun h => ?_⟩
  · have due : attemptIfDue s.part = attempt s.part := if_pos ((attemptIsDue_iff _).mpr ⟨hs, hreq, hline⟩)
    rw [due, attempt]
    refine ⟨fun hview => ?_, fun hi hst => ?_⟩
    · rw [if_pos ((viewIsClear_iff _).mpr hview)]
      obtain ⟨cab, line, slots, junction, stop, sound, tables⟩ :=
        beginActivation_frame (actSettle s.part) s.part
      obtain ⟨dPrev, demand, caps, queue⟩ := beginActivation_traction (actSettle s.part) s.part
      exact ⟨_, rfl, cab, dPrev, demand, caps, line, slots, junction, stop, sound, tables, queue⟩
    · rw [if_neg fun hclear => ((viewIsClear_iff _).mp hclear).elim hi hst]
  · have notDue : attemptIfDue s.part = s.part := if_neg fun due => by
      obtain ⟨hs, hreq, hline⟩ := (attemptIsDue_iff _).mp due
      simp [hs, hreq, hline] at h
    rw [notDue]

/-! ### The other-cab view (R46, R55 to R57) -/

/-- A record is fresh within a limit: there is one, of that age or less (R81, R82, R87). -/
theorem freshWithin_iff (p : Part) (f : Fn) (limit : Nat) :
    freshWithin p f limit = true ↔ ∃ r, fnRecord p f = some r ∧ r.age ≤ limit := by
  unfold freshWithin
  split <;> simp_all

theorem freshWithin_eq_false (p : Part) (f : Fn) (limit : Nat) :
    freshWithin p f limit = false ↔ ∀ r, fnRecord p f = some r → limit < r.age := by
  rw [← Bool.not_eq_true, freshWithin_iff]
  simp

/-- A silent record gives INACTIVE. -/
theorem derivedView_silent {p : Part} (h : freshWithin p .otherCab 5 = false) : derivedView p = .inactive := by
  simp [derivedView, otherCabIsSilent, h]

/-- The state field of a record is its first word's upper four bits. -/
theorem derivedView_record {p : Part} {r : SlotRecord} (hr : fnRecord p .otherCab = some r)
    (hage : r.age ≤ 5) : derivedView p = cabStateOf ((wordAt r.payload 0).toNat / 4096) := by
  have fresh : freshWithin p .otherCab 5 = true := (freshWithin_iff _ _ _).mpr ⟨r, hr, hage⟩
  have field : bitsOf (wordAt r.payload 0) 12 4 = (wordAt r.payload 0).toNat / 4096 :=
    Nat.mod_eq_of_lt (by have := (wordAt r.payload 0).isLt; omega)
  simp [derivedView, otherCabIsSilent, fresh, fnWord, hr, field]

/-- The view stated by its records is the derived one. -/
theorem derivedView_eq {p : Part} {v : CabState}
    (silent : (∀ r, fnRecord p .otherCab = some r → 5 < r.age) → v = .inactive)
    (record : ∀ r, fnRecord p .otherCab = some r → r.age ≤ 5 →
      v = cabStateOf ((wordAt r.payload 0).toNat / 4096)) : derivedView p = v := by
  cases h : freshWithin p .otherCab 5 with
  | false => rw [derivedView_silent h, silent ((freshWithin_eq_false _ _ _).mp h)]
  | true =>
    obtain ⟨r, hr, hage⟩ := (freshWithin_iff _ _ _).mp h
    rw [derivedView_record hr hage, record r hr hage]

/-- An activation that yields to the other cab sets CAB_CONFLICT and keeps the fault record (R55). -/
theorem activationYields_ended (p : Part) :
    ActivationEnded [.cabConflict] p.cab.fault p (activationYields p)
      ∧ (activationYields p).line = p.line := by
  refine ⟨⟨rfl, fun f => ?_, rfl, rfl, rfl, fun x => by cases x <;> rfl, rfl, rfl, rfl, rfl, rfl, rfl, rfl,
    rfl, rfl, rfl⟩, rfl⟩
  show hasFlag (withFlag p.mgmt.flags .cabConflict) f = _
  rw [hasFlag_withFlag]
  simp [eq_comm]

/-- A request for a source that is not IDLE is ignored (R152). -/
theorem request_of_not_idle {p : Part} {x : Source} (h : (getSource p.sound x).state ≠ .idle) :
    request x p = p := by
  have ignored : requestSource p.tables.cadence.words (cabActs p) x p.sound = p.sound := by
    simp [requestSource, h]
  simp [request, ignored, withSound, departureRow_same p.caps.departure (Iff.refl _)]

/-- A request for a chime source leaves the DEPARTURE row (R159). -/
theorem request_chime_eq {p : Part} {x : Source} (h : channelOf x = .chime) :
    request x p = { p with sound := (request x p).sound } := by
  have depart : (requestSource p.tables.cadence.words (cabActs p) x p.sound).depart = p.sound.depart :=
    requestSource_other _ _ (y := .depart) _ (by rw [h]; decide)
  have row : departureRow p.sound (requestSource p.tables.cadence.words (cabActs p) x p.sound)
      p.caps.departure = p.caps.departure := departureRow_same _ (by rw [depart])
  simp [request, withSound, row]

/-- A request in a cab state that takes it, for a pattern with steps (R152). -/
theorem request_notIdle {p : Part} {x : Source} (h : cabActs p = true)
    (hs : (patternOf p.tables.cadence.words x).steps ≠ 0) :
    (getSource (request x p).sound x).state ≠ .idle := by
  simp only [request, withSound_sound, h]
  exact requestSource_notIdle _ _ _ hs

/-! What a change of the view does, by cab state. -/

section
variable {q : Part} {v : CabState}

/-- Nothing more where the cab holds no authority. -/
theorem viewChanged_idle (hs : q.cab.state = .inactive ∨ q.cab.state = .stabled) : viewChanged v q = q := by
  rcases hs with hs | hs <;> simp [viewChanged, hs]

theorem viewChanged_yields (hs : q.cab.state = .activating)
    (h : v = .active ∨ v = .hold ∨ (v = .activating ∧ q.cab.cabEnd.value = .aft)) :
    viewChanged v q = activationYields q := by
  rcases h with rfl | rfl | ⟨rfl, haft⟩
  · simp [viewChanged, hs]
  · simp [viewChanged, hs]
  · simp [viewChanged, hs, haft]

theorem viewChanged_goesOn (hs : q.cab.state = .activating)
    (h : v = .inactive ∨ v = .stabled ∨ (v = .activating ∧ q.cab.cabEnd.value = .fore)) :
    viewChanged v q = q := by
  rcases h with rfl | rfl | ⟨rfl, hfore⟩
  · simp [viewChanged, hs]
  · simp [viewChanged, hs]
  · simp [viewChanged, hs, hfore]

theorem viewChanged_hold (hs : q.cab.state = .hold) :
    viewChanged v q = if v = .inactive then q else setFlag .cabConflict q := by
  simp [viewChanged, hs]

theorem viewChanged_active (hs : q.cab.state = .active) : viewChanged v q = conflictInActive v q := by
  simp [viewChanged, hs]

theorem conflictInActive_of_ne (h : v ≠ .inactive) :
    conflictInActive v q = request .alarm (setFlag .cabConflict q) := if_neg h

/-- A view that becomes INACTIVE is no conflict in any cab state. -/
theorem viewChanged_inactive (q : Part) : viewChanged .inactive q = q := by
  cases hs : q.cab.state with
  | inactive => exact viewChanged_idle (.inl hs)
  | activating => exact viewChanged_goesOn hs (.inl rfl)
  | active => rw [viewChanged_active hs, conflictInActive, if_pos rfl]
  | hold => rw [viewChanged_hold hs, if_pos rfl]
  | stabled => exact viewChanged_idle (.inr hs)

end

/-- OTHER_CAB_TIMEOUT changes the view alone (R46). -/
theorem takeView_inactive (p : Part) :
    takeView .inactive p = { p with cab := { p.cab with view := .inactive } } := by
  unfold takeView
  split
  · next h => rw [h]
  · exact viewChanged_inactive _

/-- Settles O23: the derivation of the view, then what its change does by the cab state. -/
theorem otherCabViewFollowsItsRecord : Obligations.OtherCabViewFollowsItsRecord := by
  refine ⟨fun s => ⟨fun h => ?_, fun h => ?_⟩, fun _ _ _ _ => rfl, fun _ _ => rfl,
    fun p v silent record => ?_⟩
  · rw [← takeView_inactive]
    exact when_true (by simpa [otherCabIsSilent] using (freshWithin_eq_false _ _ _).mpr h)
  · exact when_false (by simpa [otherCabIsSilent] using (freshWithin_iff _ _ _).mpr h)
  · have derived : derivedView p = v := derivedView_eq silent fun r hr hage => record r hr hage
    refine ⟨fun hv => ?_, fun hv => ?_⟩
    · rw [deriveView, derived]
      exact if_pos hv
    · have changed : deriveView p = viewChanged v { p with cab := { p.cab with view := v } } := by
        rw [deriveView, derived]
        exact if_neg hv
      rw [changed]
      refine ⟨fun hs => viewChanged_idle hs, fun hs => ⟨fun h => ?_, fun h => viewChanged_goesOn hs h⟩,
        fun hs => viewChanged_hold hs, fun hs => ?_⟩
      · rw [viewChanged_yields (q := { p with cab := { p.cab with view := v } }) hs h]
        exact activationYields_ended _
      · rw [viewChanged_active (q := { p with cab := { p.cab with view := v } }) hs]
        refine ⟨fun hi => if_pos hi, fun hi => ?_⟩
        rw [conflictInActive_of_ne hi]
        refine ⟨fun ha => request_of_not_idle (x := .alarm) ha, fun _ => ⟨?_, ?_⟩⟩
        · exact request_chime_eq rfl
        · exact request_notIdle (x := .alarm) (by simp [cabActs, hs])

end Sys2Proof.Machine
end

section
/-! ## The stage SPEED_LOCK and the entry to ACTIVE (R54): O26 -/

namespace Sys2Proof.Machine

set_option Elab.async false

/-! ### The count of the stage -/

section
variable {p : Part}

theorem speedLockStageIsOver_eq (hs : p.cab.state = .activating) (hstage : p.cab.stage = .speedLock) :
    speedLockStageIsOver p = decide (lockCountNeeded p ≤ p.cab.count) := by
  simp [speedLockStageIsOver, hs, hstage]

/-- A stale SPEED record returns the count to 0. -/
theorem stageCycle_speedLock_stale (hstage : p.cab.stage = .speedLock) (h : speedFresh p = false) :
    stageCycle p = { p with cab := { p.cab with count := 0 } } := by
  simp [stageCycle, hstage, h]

/-- A fresh one takes it up by one, and the cab enters ACTIVE at lock_count. -/
theorem stageCycle_speedLock_fresh (hs : p.cab.state = .activating) (hstage : p.cab.stage = .speedLock)
    (h : speedFresh p = true) :
    stageCycle p =
      if lockCountNeeded p ≤ p.cab.count + 1 then enterActive (countStage p) else countStage p := by
  have isOver : speedLockStageIsOver (countStage p) = decide (lockCountNeeded p ≤ p.cab.count + 1) :=
    speedLockStageIsOver_eq hs hstage
  simp [stageCycle, hstage, h, isOver]

end

/-! ### What a request leaves alone (R152, R159) -/

/-- A request for a chime source leaves every row. -/
theorem request_chime_caps {p : Part} {x : Source} (h : channelOf x = .chime) :
    (request x p).caps = p.caps := by
  rw [request_chime_eq h]

/-- A request leaves the sources of the other channel. -/
theorem request_other {x y : Source} (h : channelOf y ≠ channelOf x) (p : Part) :
    getSource (request x p).sound y = getSource p.sound y :=
  requestSource_other _ _ _ h

/-- DEPART taken out of IDLE sets the DEPARTURE row at 0 (R159). -/
theorem request_depart_row {p : Part} (h : cabActs p = true) (hidle : p.sound.depart.state = .idle)
    (hs : (patternOf p.tables.cadence.words .depart).steps ≠ 0) :
    (request .depart p).caps.departure = some 0 := by
  have notIdle : (request .depart p).sound.depart.state ≠ .idle := request_notIdle (x := .depart) h hs
  show departureRow p.sound (request .depart p).sound p.caps.departure = some 0
  rw [departureRow, if_neg notIdle, if_pos hidle]

/-- A conflict leaves the rows and the bell channel. -/
theorem conflictInActive_bell (v : CabState) (p : Part) :
    (conflictInActive v p).caps = p.caps ∧ (conflictInActive v p).sound.depart = p.sound.depart := by
  unfold conflictInActive
  split
  · exact ⟨rfl, rfl⟩
  · exact ⟨request_chime_caps rfl, request_other (x := .alarm) (y := .depart) (by decide) _⟩

/-! ### The entry -/

/-- The part in ACTIVE with the CAB row withdrawn, before DEPART is requested and the other cab is judged. -/
def activated (p : Part) : Part :=
  withdrawRow .cab { p with cab := { p.cab with
    state := .active
    stage := .none
    table := none
    count := 0
    pending := .none } }

/-- DEPART requested with departure_warning ON. -/
def warned (p : Part) : Part := if departureWarning p then request .depart (activated p) else activated p

theorem enterActive_eq (p : Part) :
    enterActive p = conflictInActive p.cab.view (stopEntersActive (warned p)) := rfl

section
variable (p : Part)

theorem warned_off (h : departureWarning p = false) : warned p = activated p := by
  simp [warned, h]

theorem warned_on (h : departureWarning p = true) : warned p = request .depart (activated p) := by
  simp [warned, h]

/-- What the entry leaves as it was, and the cab and the trip phase that it leads to. -/
theorem enterActive_frame :
    (enterActive p).cab = (activated p).cab ∧ (enterActive p).caps.cab = none
      ∧ (∀ r, r ≠ .cab → r ≠ .departure → getRow (enterActive p).caps r = getRow p.caps r)
      ∧ (enterActive p).stop = { p.stop with phase := .running }
      ∧ (enterActive p).line = p.line ∧ (enterActive p).slots = p.slots
      ∧ (enterActive p).traction = p.traction ∧ (enterActive p).junction = p.junction
      ∧ (enterActive p).tables = p.tables := by
  have rows : (warned p).caps = { p.caps with cab := none, departure := (warned p).caps.departure } := by
    unfold warned
    split <;> rfl
  have caps : (enterActive p).caps = (warned p).caps :=
    (conflictInActive_bell p.cab.view (stopEntersActive (warned p))).1
  rw [caps, rows]
  refine ⟨?_, rfl, fun r hcab hdeparture => ?_, ?_⟩
  · rw [enterActive_eq, (conflictInActive_cabFrame _ _).cab]
    unfold warned stopEntersActive
    split <;> rfl
  · cases r with
    | cab => exact absurd rfl hcab
    | departure => exact absurd rfl hdeparture
    | _ => rfl
  · rw [enterActive_eq]
    unfold warned conflictInActive
    split <;> split <;> exact ⟨rfl, rfl, rfl, rfl, rfl, rfl⟩

theorem enterActive_departure :
    (enterActive p).caps.departure = (warned p).caps.departure
      ∧ (enterActive p).sound.depart = (warned p).sound.depart := by
  obtain ⟨caps, depart⟩ := conflictInActive_bell p.cab.view (stopEntersActive (warned p))
  exact ⟨congrArg CapTable.departure caps, depart⟩

theorem warned_alarm : (warned p).sound.alarm = p.sound.alarm ∧ (warned p).mgmt = p.mgmt
    ∧ (warned p).cab.state = .active ∧ (warned p).tables = p.tables := by
  cases h : departureWarning p with
  | false =>
    rw [warned_off p h]
    exact ⟨rfl, rfl, rfl, rfl⟩
  | true =>
    rw [warned_on p h]
    exact ⟨request_other (x := .depart) (y := .alarm) (by decide) _, rfl, rfl, rfl⟩

end

/-- Settles O26: the count by the age of the SPEED record; then the entry, by departure_warning and the view. -/
theorem entryToActiveOpensTheRow : Obligations.EntryToActiveOpensTheRow := by
  intro s hs hstage
  have event : ∀ p : Part, p.cab.state = .activating → p.cab.stage = .speedLock →
      lockCountNeeded p ≤ p.cab.count →
      exec .entryToActive { s with part := p } = .next { s with part := enterActive p } := fun p hp hpst hc =>
    when_true (by rw [speedLockStageIsOver_eq hp hpst]; exact decide_eq_true hc)
  refine ⟨fun h => ?_, fun x hx hage => ?_, fun h => ?_, fun h => ?_⟩
  · exact stageCycle_speedLock_stale hstage ((freshWithin_eq_false _ _ _).mpr h)
  · have fresh : speedFresh s.part = true := (freshWithin_iff _ _ _).mpr ⟨x, hx, hage⟩
    rw [stageCycle_speedLock_fresh hs hstage fresh]
    refine ⟨fun hc => if_neg (by omega), fun hc => ?_⟩
    rw [if_pos hc]
    exact event _ hs hstage hc
  · exact when_false (by rw [speedLockStageIsOver_eq hs hstage]; exact decide_eq_false (by omega))
  · obtain ⟨cab, row, rows, stop, line, slots, traction, junction, tables⟩ := enterActive_frame s.part
    obtain ⟨departure, depart⟩ := enterActive_departure s.part
    obtain ⟨alarm, mgmt, active, warnedTables⟩ := warned_alarm s.part
    refine ⟨enterActive s.part, event s.part hs hstage h, cab, row, rows, stop, fun hoff => ?_,
      fun hon hidle hsteps => ?_, fun hview => ?_, fun hview => ⟨?_, fun hsteps => ?_⟩,
      line, slots, traction, junction, tables⟩
    · rw [departure, depart, warned_off _ hoff]
      exact ⟨rfl, rfl⟩
    · rw [departure, depart, warned_on _ hon]
      exact ⟨request_depart_row rfl hidle hsteps, request_notIdle (x := .depart) rfl hsteps⟩
    · rw [enterActive_eq, hview]
      exact ⟨mgmt, alarm⟩
    · rw [enterActive_eq, conflictInActive_of_ne hview, ← mgmt]
      rfl
    · rw [enterActive_eq, conflictInActive_of_ne hview]
      refine request_notIdle (x := .alarm) ?_ ?_
      · simp [cabActs, stopEntersActive, active]
      · rwa [← warnedTables] at hsteps

end Sys2Proof.Machine
end

section
/-! ## A waiting exit (R58, R59), and the entry to HOLD (R60): O27 -/

namespace Sys2Proof.Machine

set_option Elab.async false

/-! ### The limits are not negative (R90 to R93) -/

/-- Between two breakpoints a limit lies between theirs, and so is not negative (R92). -/
theorem interpolate_nonneg {v sa sb : Nat} (ha : sa < v) (hb : v < sb) (la lb : Nat) :
    0 ≤ interpolate v sa la sb lb := by
  have width : 0 < (sb : Int) - sa := by omega
  have place : 0 ≤ (v : Int) - sa := by omega
  unfold interpolate
  rcases Nat.le_total la lb with hle | hle
  · have rise : 0 ≤ ((lb : Int) - la) * ((v : Int) - sa) := Int.mul_nonneg (by omega) place
    have := Int.tdiv_nonneg rise width.le
    omega
  · have fall : 0 ≤ ((la : Int) - lb) * ((v : Int) - sa) := Int.mul_nonneg (by omega) place
    have bound : ((la : Int) - lb) * ((v : Int) - sa) ≤ ((la : Int) - lb) * ((sb : Int) - sa) :=
      Int.mul_le_mul_of_nonneg_left (by omega) (by omega)
    have quotient : (((la : Int) - lb) * ((v : Int) - sa)).tdiv ((sb : Int) - sa) ≤ (la : Int) - lb := by
      rw [Int.tdiv_eq_ediv_of_nonneg fall]
      exact Int.ediv_le_of_le_mul width bound
    have flip : ((lb : Int) - la) * ((v : Int) - sa) = -(((la : Int) - lb) * ((v : Int) - sa)) := by ring
    rw [flip, Int.neg_tdiv]
    omega

theorem limitsOver_nonneg (v : Nat) (bs : List Breakpoint) :
    0 ≤ (limitsOver v bs).1 ∧ 0 ≤ (limitsOver v bs).2 := by
  induction bs with
  | nil => exact ⟨by simp [limitsOver], by simp [limitsOver]⟩
  | cons a bs ih =>
    cases bs with
    | nil => exact ⟨Int.natCast_nonneg _, Int.natCast_nonneg _⟩
    | cons b rest =>
      unfold limitsOver
      split
      · exact ⟨Int.natCast_nonneg _, Int.natCast_nonneg _⟩
      · next ha =>
        split
        · next hb =>
          exact ⟨interpolate_nonneg (by omega) hb _ _, interpolate_nonneg (by omega) hb _ _⟩
        · exact ih

theorem limits_nonneg (p : Part) : 0 ≤ (limits p).1 ∧ 0 ≤ (limits p).2 := by
  unfold limits
  split
  · split
    · exact limitsOver_nonneg _ _
    · exact limitsOver_nonneg _ _
  · exact ⟨Int.natCast_nonneg _, Int.natCast_nonneg _⟩

/-! ### D under a row at 0 (R48, R69, R95) -/

/-- A row of the cap table at 0 holds P at 0. -/
theorem permittedSpeed_of_cab {p : Part} (h : p.caps.cab = some 0) : permittedSpeed p = 0 := by
  obtain ⟨-, -, least⟩ := formP_spec p.caps laterRows (p.caps.line, .line) rfl
  exact Nat.le_zero.mp (least .cab (by simp [laterRows]) 0 h)

/-- At a P of 0 stage 2 cuts or forces at every speed. -/
theorem supervise_zero (v margin : Nat) (episode : Bool) : supervise v 0 margin episode ≠ .none := by
  unfold supervise
  split
  · simp
  · cases episode <;> simp

theorem superviseTarget_nonpos {outcome : Supervision} (h : outcome ≠ .none) (force : Nat) (t : Target) :
    (superviseTarget outcome force t).x ≤ 0 := by
  cases outcome with
  | none => exact absurd rfl h
  | cut => exact Int.min_le_right _ _
  | forced => simp [superviseTarget]

/-- The brake limit does not turn a braking target round. -/
theorem shape_nonpos {lim : Int × Int} (h : 0 ≤ lim.2) {t : Target} (ht : t.x ≤ 0) : (shape lim t).x ≤ 0 := by
  unfold shape
  split
  · next hpos => omega
  · split
    · simpa using h
    · exact ht

/-- After a cut or a forced brake there is no ramp (R98). -/
theorem ramp_of_ne {outcome : Supervision} (h : outcome ≠ .none) (dPrev up down : Int) (t : Target) :
    ramp outcome dPrev up down t = t := by
  cases outcome with
  | none => exact absurd rfl h
  | cut => rfl
  | forced => rfl

theorem fourStages_nonpos {p : Part} (h : permittedSpeed p = 0) : (fourStages p).x ≤ 0 := by
  have acts := supervise_zero p.traction.vEff (overspeedMargin p) p.traction.episode
  unfold fourStages
  rw [h]
  dsimp only
  rw [ramp_of_ne acts]
  exact shape_nonpos (limits_nonneg p).2 (superviseTarget_nonpos acts _ _)

theorem demandOf_nonpos {p : Part} (h : permittedSpeed p = 0) : (demandOf p).x ≤ 0 := by
  unfold demandOf
  split
  · simp
  · split
    · simp
    · split
      · simp
      · exact fourStages_nonpos h

/-- An evaluation under the CAB row at 0 has D at most 0. -/
theorem evaluate_nonpos {p : Part} (h : p.caps.cab = some 0) : (evaluate p).traction.demand.d ≤ 0 :=
  demandOf_nonpos (permittedSpeed_of_cab ((evaluate_cabFrame p).row.trans h))

/-! ### The exit that waits -/

theorem exec_pendingExitTaken (s : State) :
    exec .pendingExitTaken s =
      .next { s with part := if exitIsDue s.part then takeExit s.part else s.part } := rfl

/-- The entry to HOLD (R60, R85, R165). -/
theorem enterHold_frame (p : Part) :
    (enterHold p).cab = { p.cab with state := .hold, pending := .none, holdMode := holdExit p }
      ∧ (enterHold p).caps.cab = some 0
      ∧ (∀ r, r ≠ .cab → r ≠ .departure → getRow (enterHold p).caps r = getRow p.caps r)
      ∧ (enterHold p).traction = { p.traction with
          episode := false
          envelopeAlarm := false
          suspended := decide (holdExit p = .slow) }
      ∧ (enterHold p).line = p.line ∧ (enterHold p).slots = p.slots ∧ (enterHold p).junction = p.junction
      ∧ (enterHold p).stop = p.stop ∧ (enterHold p).tables = p.tables ∧ (enterHold p).mgmt = p.mgmt := by
  refine ⟨rfl, rfl, fun r hcab hdeparture => ?_, rfl, rfl, rfl, rfl, rfl, rfl, rfl⟩
  cases r with
  | cab => exact absurd rfl hcab
  | departure => exact absurd rfl hdeparture
  | _ => rfl

/-- DRIVER_BELL is stopped, and the sources of the chime and the horn stand (R165). -/
theorem enterHold_sound (p : Part) :
    (enterHold p).sound.driverBell.state = .idle ∧ (enterHold p).sound.alarm = p.sound.alarm
      ∧ (enterHold p).sound.assist = p.sound.assist ∧ (enterHold p).sound.stop = p.sound.stop
      ∧ (enterHold p).sound.horn = p.sound.horn := by
  have chime : ∀ (snd : Sound) x, channelOf x = .chime →
      getSource (stopSource p.tables.cadence.words .driverBell snd) x = getSource snd x :=
    fun snd x hx => stopSource_other _ snd (by rw [hx]; decide)
  exact ⟨stopSource_idle _ .driverBell _, chime _ .alarm rfl, chime _ .assist rfl, chime _ .stop rfl,
    (stopSource_desk _ _ _).horn⟩

/-- Settles O27: the exit waits; an evaluation takes it as the command does; the entry to HOLD. -/
theorem waitingHoldIsTakenAtRest : Obligations.WaitingHoldIsTakenAtRest := by
  intro s hs
  refine ⟨fun hp => ⟨fun hmoves => ?_, fun hrow => ?_⟩, fun hp hv hd => ?_⟩
  · refine when_false ?_
    have : isAtRest s.part = false := by
      rcases hmoves with hv | hd
      · simp [isAtRest, hv]
      · simp [isAtRest, hd]
    simp [exitIsDue, this]
  · have rest := evaluate_nonpos hrow
    refine ⟨rest, ?_⟩
    rw [exec_pendingExitTaken]
    simp only [exitIsDue, isAtRest, decide_eq_true rest, Bool.and_true]
    rfl
  · obtain ⟨cab, row, rows, traction, line, slots, junction, stop, tables, mgmt⟩ := enterHold_frame s.part
    obtain ⟨driverBell, alarm, assist, stopSource, horn⟩ := enterHold_sound s.part
    refine ⟨enterHold s.part, ?_, cab, row, rows, traction, driverBell, alarm, assist, stopSource, horn, line,
      slots, junction, stop, tables, mgmt⟩
    have due : exitIsDue s.part = true := by simp [exitIsDue, exitWaits, isAtRest, hs, hp, hv, hd]
    rw [exec_pendingExitTaken, if_pos due]
    simp only [takeExit, hp]

end Sys2Proof.Machine
end

section
/-! ## Teardown (R62, R102, R129, R145, R165): O28 -/

namespace Sys2Proof.Machine

set_option Elab.async false

/-! ### The open records are discarded (R129) -/

/-- The rows of the open records, and no other JUNCTION row, are present (R111). -/
def RowsFollowRecords (p : Part) : Prop :=
  ∀ pos : Fin 4, (p.caps.junctions[pos]).isSome = (openAt p pos).isSome

/-- From `p` to `q` records and RELEASEs of the junction unit have at most changed, with the JUNCTION rows, the
junction fault condition and the flag RELEASE_LOST. -/
structure DiscardFrame (p q : Part) : Prop where
  traction : q.traction = p.traction
  stop : q.stop = p.stop
  tables : q.tables = p.tables
  lastMarker : q.junction.lastMarker = p.junction.lastMarker
  selection : q.junction.selection = p.junction.selection
  dropped : hasFlag q.mgmt.flags .releaseDropped = hasFlag p.mgmt.flags .releaseDropped
  caps : q.caps = { p.caps with junctions := q.caps.junctions }
  rows : RowsFollowRecords p → RowsFollowRecords q

namespace DiscardFrame

theorem refl (p : Part) : DiscardFrame p p := ⟨rfl, rfl, rfl, rfl, rfl, rfl, rfl, id⟩

theorem trans {p q r : Part} (a : DiscardFrame p q) (b : DiscardFrame q r) : DiscardFrame p r where
  traction := b.traction.trans a.traction
  stop := b.stop.trans a.stop
  tables := b.tables.trans a.tables
  lastMarker := b.lastMarker.trans a.lastMarker
  selection := b.selection.trans a.selection
  dropped := b.dropped.trans a.dropped
  caps := by
    have h := b.caps
    rw [a.caps] at h
    exact h
  rows := b.rows ∘ a.rows

end DiscardFrame

theorem appendRelease_list (x : Release) (p : Part) : (appendRelease x p).junction.list = p.junction.list := by
  unfold appendRelease
  split <;> rfl

theorem appendRelease_queue_ne_nil (x : Release) (p : Part) : (appendRelease x p).junction.queue ≠ [] := by
  unfold appendRelease
  split <;> simp

theorem appendRelease_discardFrame (x : Release) (p : Part) : DiscardFrame p (appendRelease x p) := by
  unfold appendRelease
  split
  · exact ⟨rfl, rfl, rfl, rfl, rfl, rfl, rfl, id⟩
  · exact ⟨rfl, rfl, rfl, rfl, rfl, by simp, rfl, id⟩

/-- The RELEASE of a record whose SET has been sent is queued. -/
def released (r : JunctionRecord) (p : Part) : Part :=
  if r.setSent then appendRelease (releaseOf p r) p else p

theorem released_list (r : JunctionRecord) (p : Part) : (released r p).junction.list = p.junction.list := by
  unfold released
  split
  · exact appendRelease_list _ p
  · rfl

theorem released_discardFrame (r : JunctionRecord) (p : Part) : DiscardFrame p (released r p) := by
  unfold released
  split
  · exact appendRelease_discardFrame _ p
  · exact .refl p

theorem released_queue (r : JunctionRecord) (p : Part) :
    (released r p).junction.queue ≠ [] ↔ p.junction.queue ≠ [] ∨ r.setSent = true := by
  unfold released
  split
  · next h => simp [h, appendRelease_queue_ne_nil]
  · next h => simp [h]

section
variable {p : Part} {pos : Fin 4}

theorem discard_none (h : openAt p pos = none) : discard p pos = p := by
  simp [discard, h]

theorem discard_some {r : JunctionRecord} (h : openAt p pos = some r) :
    discard p pos = withList ((released r p).junction.list.set pos none)
      (withdrawRow (.junction pos) (released r p)) := by
  simp only [discard, h]
  rfl

theorem openAt_discard (p : Part) (pos pos' : Fin 4) :
    openAt (discard p pos) pos' = if pos' = pos then none else openAt p pos' := by
  cases h : openAt p pos with
  | none =>
    rw [discard_none h]
    split
    · next e => rw [e, h]
    · rfl
  | some r =>
    rw [discard_some h, openAt_withList, released_list]
    by_cases e : pos' = pos
    · simp [e]
    · simp [e, openAt, Fin.val_ne_of_ne (Ne.symm e)]

theorem discard_queue (p : Part) (pos : Fin 4) :
    (discard p pos).junction.queue ≠ [] ↔
      p.junction.queue ≠ [] ∨ ∃ r, openAt p pos = some r ∧ r.setSent = true := by
  cases h : openAt p pos with
  | none => simp [discard_none h]
  | some r =>
    rw [discard_some h]
    exact (released_queue r p).trans (by simp)

theorem discard_frame (p : Part) (pos : Fin 4) : DiscardFrame p (discard p pos) := by
  cases h : openAt p pos with
  | none =>
    rw [discard_none h]
    exact .refl p
  | some r =>
    have rows : RowsFollowRecords (released r p) → RowsFollowRecords (discard p pos) := fun follow pos' => by
      have before := follow pos'
      rw [openAt_discard, discard_some h]
      by_cases e : pos' = pos
      · simp [e, putRow, withList]
      · have list : openAt (released r p) pos' = openAt p pos' := by rw [openAt, released_list, openAt]
        rw [list] at before
        simpa [e, putRow, withList, Fin.val_ne_of_ne (Ne.symm e)] using before
    refine (released_discardFrame r p).trans ?_
    rw [discard_some h] at rows ⊢
    exact ⟨rfl, rfl, rfl, rfl, rfl, rfl, rfl, rows⟩

end

theorem openAt_foldl_discard (xs : List (Fin 4)) (p : Part) (pos : Fin 4) :
    openAt (xs.foldl discard p) pos = if pos ∈ xs then none else openAt p pos := by
  induction xs generalizing p with
  | nil => simp
  | cons x xs ih =>
    rw [List.foldl_cons, ih, openAt_discard]
    by_cases hx : pos = x <;> simp [hx]

/-- A RELEASE waits after the discards where one waited, or where the SET of a discarded record had been
sent. -/
theorem foldl_discard_queue (xs : List (Fin 4)) (p : Part) :
    (xs.foldl discard p).junction.queue ≠ [] ↔
      p.junction.queue ≠ [] ∨ ∃ pos ∈ xs, ∃ r, openAt p pos = some r ∧ r.setSent = true := by
  induction xs generalizing p with
  | nil => simp
  | cons x xs ih =>
    rw [List.foldl_cons, ih, discard_queue]
    simp only [openAt_discard]
    constructor
    · rintro ((h | h) | ⟨pos, hpos, r, hr, hsent⟩)
      · exact .inl h
      · exact .inr ⟨x, by simp, h⟩
      · split at hr
        · cases hr
        · exact .inr ⟨pos, by simp [hpos], r, hr, hsent⟩
    · rintro (h | ⟨pos, hpos, r, hr, hsent⟩)
      · exact .inl (.inl h)
      · by_cases e : pos = x
        · subst e
          exact .inl (.inr ⟨r, hr, hsent⟩)
        · exact .inr ⟨pos, (List.mem_cons.mp hpos).resolve_left e, r, by rw [if_neg e, hr], hsent⟩

theorem foldl_discard_frame (xs : List (Fin 4)) (p : Part) : DiscardFrame p (xs.foldl discard p) := by
  induction xs generalizing p with
  | nil => exact .refl p
  | cons x xs ih => exact (discard_frame p x).trans (ih _)

theorem mem_positions (pos : Fin 4) : pos ∈ positions := by
  revert pos
  decide

/-! ### The units (R102, R129, R145, R165) -/

/-- The part with every open record discarded. -/
def discarded (p : Part) : Part := positions.foldl discard p

theorem openAt_discarded (p : Part) (pos : Fin 4) : openAt (discarded p) pos = none := by
  rw [discarded, openAt_foldl_discard, if_pos (mem_positions pos)]

/-- No record, no JUNCTION row. -/
theorem discarded_row {p : Part} (h : RowsFollowRecords p) (pos : Fin 4) :
    (discarded p).caps.junctions[pos] = none := by
  have row := (foldl_discard_frame positions p).rows h pos
  rw [← discarded, openAt_discarded] at row
  simpa using row

section
variable (p : Part)

/-- Teardown in the junction unit, past the discards. -/
theorem junctionTeardown_fields :
    (junctionTeardown p).junction = { (discarded p).junction with queue := [], arbiter := 0 }
      ∧ (junctionTeardown p).caps = { (discarded p).caps with overflow := none }
      ∧ (junctionTeardown p).mgmt.flags =
          (setFlagIf (!(discarded p).junction.queue.isEmpty) .releaseDropped (discarded p)).mgmt.flags
      ∧ (junctionTeardown p).stop = (discarded p).stop
      ∧ (junctionTeardown p).traction = (discarded p).traction
      ∧ (junctionTeardown p).tables = (discarded p).tables := by
  unfold junctionTeardown discarded
  generalize positions.foldl discard p = d
  exact ⟨rfl, rfl, rfl, rfl, rfl, rfl⟩

/-- RELEASE_DROPPED is set where a RELEASE waited after the discards. -/
theorem junctionTeardown_dropped :
    hasFlag (junctionTeardown p).mgmt.flags .releaseDropped = true ↔
      hasFlag p.mgmt.flags .releaseDropped = true ∨ p.junction.queue ≠ []
        ∨ ∃ pos r, openAt p pos = some r ∧ r.setSent = true := by
  have queue := foldl_discard_queue positions p
  simp only [mem_positions, true_and] at queue
  rw [← discarded] at queue
  have dropped := (foldl_discard_frame positions p).dropped
  rw [← discarded] at dropped
  obtain ⟨-, -, flags, -⟩ := junctionTeardown_fields p
  rw [← queue, ← dropped, flags]
  cases h : (discarded p).junction.queue <;> simp

/-- The part as teardown finds it, with the cab INACTIVE and the CAB row at 0. -/
def deposed : Part :=
  setRow .cab 0 { p with cab := { p.cab with
    state := .inactive
    pending := .none
    stage := .none
    table := none
    count := 0 } }

/-- The stop, sound and traction units at a teardown (R102, R145, R165). -/
def unitsOff : Part := tractionTeardown (soundOff (stopTeardown p))

theorem teardown_eq : teardown p = unitsOff (junctionTeardown (deposed p)) := rfl

theorem unitsOff_frame :
    (unitsOff p).stop = { p.stop with
        phase := .running
        request := false
        push := 0
        doorOpen := 0
        assistance := Vector.replicate 8 .clear }
      ∧ (unitsOff p).caps = { p.caps with departure := none, speedLock := none }
      ∧ (unitsOff p).traction = { p.traction with
          episode := false
          envelopeAlarm := false
          dPrev := -1000
          latch := false
          suspended := false }
      ∧ (unitsOff p).junction = p.junction ∧ (unitsOff p).tables = p.tables ∧ (unitsOff p).cab = p.cab := by
  unfold unitsOff tractionTeardown tractionReturns
  exact ⟨rfl, rfl, rfl, rfl, rfl, rfl⟩

/-- Silence after a teardown: no source plays, the horn is off, and no alarm condition holds (R165). -/
theorem unitsOff_silent :
    (∀ x, (getSource (unitsOff p).sound x).state = .idle) ∧ (unitsOff p).sound.horn = .off
      ∧ bellOut (unitsOff p) = false ∧ hornOut (unitsOff p) = false ∧ alarmLamp (unitsOff p) = false
      ∧ chimeRole (unitsOff p) = 0 := by
  refine ⟨fun x => by cases x <;> rfl, rfl, rfl, rfl, ?_, rfl⟩
  have forced : (unitsOff p).sound.forced = false := ite_self _
  have envelope : (unitsOff p).sound.envelope = false := ite_self _
  rw [alarmLamp, forced, envelope]
  rfl

theorem junctionTeardown_caps :
    (junctionTeardown p).caps = { p.caps with
      overflow := none
      junctions := (discarded p).caps.junctions } := by
  obtain ⟨-, caps, -⟩ := junctionTeardown_fields p
  have rows : (discarded p).caps = { p.caps with junctions := (discarded p).caps.junctions } :=
    (foldl_discard_frame positions p).caps
  rw [caps, rows]

/-- Where the JUNCTION rows follow the records, teardown leaves LINE, DOORS and RESTRICT, and the CAB row at
0. -/
theorem getRow_teardown (h : RowsFollowRecords p) (r : Row) :
    getRow (teardown p).caps r =
      if r = .cab then some 0
      else if r = .line ∨ r = .doors ∨ r = .restrict then getRow p.caps r else none := by
  have rows := discarded_row (p := deposed p) h
  obtain ⟨-, caps, -⟩ := unitsOff_frame (junctionTeardown (deposed p))
  rw [teardown_eq, caps, junctionTeardown_caps]
  cases r with
  | junction pos => exact rows pos
  | _ => rfl

/-- Nothing is open or queued, and the last marker counter, the selection and the other units stand (R129). -/
theorem junctionTeardown_frame :
    (∀ pos, openAt (junctionTeardown p) pos = none) ∧ (junctionTeardown p).junction.queue = []
      ∧ (junctionTeardown p).junction.arbiter = 0
      ∧ (junctionTeardown p).junction.lastMarker = p.junction.lastMarker
      ∧ (junctionTeardown p).junction.selection = p.junction.selection
      ∧ (junctionTeardown p).stop = p.stop ∧ (junctionTeardown p).traction = p.traction
      ∧ (junctionTeardown p).tables = p.tables := by
  have frame : DiscardFrame p (discarded p) := foldl_discard_frame positions p
  obtain ⟨junction, -, -, stop, traction, tables⟩ := junctionTeardown_fields p
  refine ⟨fun pos => ?_, ?_, ?_, ?_, ?_, stop.trans frame.stop, traction.trans frame.traction,
    tables.trans frame.tables⟩
  · rw [openAt, junction]
    exact openAt_discarded p pos
  · rw [junction]
  · rw [junction]
  · rw [junction, ← frame.lastMarker]
  · rw [junction, ← frame.selection]

/-- Teardown tears every unit down (R62). -/
theorem teardown_tornDown (h : RowsFollowRecords p) : TornDown p (teardown p) := by
  have rows := getRow_teardown p h
  have line := (teardown_unitFrame p).line
  have stores := teardown_storeFrame p
  have dropped := junctionTeardown_dropped (deposed p)
  have cab := (junctionTeardown_cabFrame (deposed p)).cab
  have silent := unitsOff_silent (junctionTeardown (deposed p))
  obtain ⟨records, queue, arbiter, lastMarker, selection, stop, traction, tables⟩ :=
    junctionTeardown_frame (deposed p)
  rw [teardown_eq] at rows line stores ⊢
  generalize junctionTeardown (deposed p) = j at *
  obtain ⟨idle, horn, bell, hornOut, lamp, role⟩ := silent
  obtain ⟨stopOff, -, tractionOff, junctionOff, tablesOff, cabOff⟩ := unitsOff_frame j
  refine ⟨cabOff.trans cab, rows, fun pos => ?_, ?_, ?_, ?_, ?_, dropped, ?_, ?_, idle, horn, bell, hornOut, lamp, role, ?_,
    line, stores.slots, tablesOff.trans tables, stores.responses⟩
  · rw [openAt, junctionOff]
    exact records pos
  · rw [junctionOff, queue]
  · rw [junctionOff, arbiter]
  · rw [junctionOff]
    exact lastMarker
  · rw [junctionOff]
    exact selection
  · rw [stopOff, stop]
    rfl
  · rw [stopLamp, stopOff]
  · rw [tractionOff, traction]
    rfl

end

theorem JunctionOk.rowsFollowRecords {p : Part} (h : JunctionOk p) : RowsFollowRecords p := h.1

/-- Settles O28: the exit is due, and it is the teardown. -/
theorem teardownClearsTheUnits : Obligations.TeardownClearsTheUnits := by
  intro s hs hp hv hd hj
  have due : exitIsDue s.part = true := by simp [exitIsDue, exitWaits, isAtRest, hs, hp, hv, hd]
  refine ⟨teardown s.part, ?_, teardown_tornDown s.part hj.rowsFollowRecords⟩
  rw [exec_pendingExitTaken, if_pos due]
  simp only [takeExit, hp]

end Sys2Proof.Machine
end

section
/-! ## The scrub and the exits from STABLED (R64, R65): O29 -/

namespace Sys2Proof.Machine

set_option Elab.async false

/-! ### One table of a scrub pass -/

theorem sumMatches_iff (x : Table) : sumMatches x = true ↔ tableSum x.words = x.ref := by
  simp [sumMatches]

section
variable {p : Part} {t : TableId}

theorem scrubTable_intact (h : tableSum (tableAt p.tables t).words = (tableAt p.tables t).ref) :
    scrubTable t p = { p with cab := { p.cab with scrubPass := tableAfter t } } := by
  have intact : sumMatches (tableAt p.tables t) = true := (sumMatches_iff _).mpr h
  simp only [scrubTable, intact]
  rfl

/-- A table whose sum differs is marked FAULTY, with TABLE_FAULT. -/
theorem scrubTable_damaged (h : tableSum (tableAt p.tables t).words ≠ (tableAt p.tables t).ref) :
    scrubTable t p = setFlag .tableFault { p with
      cab := { p.cab with scrubPass := tableAfter t }
      tables := putTable p.tables t { tableAt p.tables t with faulty := true } } := by
  have damaged : sumMatches (tableAt p.tables t) = false := by
    rw [← Bool.not_eq_true, sumMatches_iff]
    exact h
  simp only [scrubTable, damaged]
  rfl

/-! ### The scrub at a cycle start -/

theorem scrubCycle_of_ne (h : p.cab.state ≠ .stabled) : scrubCycle p = p := if_neg h

/-- The scrub count one up, which stays at 4095. -/
def scrubCounted (p : Part) : Part :=
  { p with cab := { p.cab with scrubCount := min 4095 (p.cab.scrubCount + 1) } }

theorem scrubCycle_between (hs : p.cab.state = .stabled) (hpass : p.cab.scrubPass = none) :
    scrubCycle p = if scrubIsDue (scrubCounted p) then beginScrub (scrubCounted p) else scrubCounted p := by
  rw [scrubCycle, if_pos hs]
  split
  next h => cases hpass.symm.trans h
  next => rfl

theorem scrubCycle_passing (hs : p.cab.state = .stabled) (hpass : p.cab.scrubPass = some t) :
    scrubCycle p = leaveStabledIfDue (scrubTable t (scrubCounted p)) := by
  rw [scrubCycle, if_pos hs]
  split
  next h => cases hpass.symm.trans h; rfl
  next h => cases hpass.symm.trans h

theorem scrubIsDue_eq (hs : p.cab.state = .stabled) (hpass : p.cab.scrubPass = none) :
    scrubIsDue p = decide (scrubInterval p ≤ p.cab.scrubCount) := by
  simp [scrubIsDue, hs, hpass]

/-- SLOT to ROUTE in turn: the table after another is that of the next code, and none follows ROUTE. -/
theorem tableAfter_eq {next : Option TableId} (last : t = .route → next = none)
    (other : t ≠ .route → ∃ u, next = some u ∧ tableCode u = tableCode t + 1) : tableAfter t = next := by
  by_cases h : t = .route
  · rw [last h, h]
    rfl
  · obtain ⟨u, hu, code⟩ := other h
    rw [hu, tableAfter_of_code code]

/-! ### The exits -/

theorem exec_scrubPassBegin (s : State) :
    exec .scrubPassBegin s =
      .next { s with part := if scrubIsDue s.part then beginScrub s.part else s.part } := rfl

theorem exec_stabledExit (s : State) :
    exec .stabledExit s = .next { s with part := leaveStabledIfDue s.part } := rfl

/-- A DRIVE waits while the line is lost. -/
theorem leaveStabledIfDue_lost (hp : p.cab.pending = .drive) (hline : lineLost p = true) :
    leaveStabledIfDue p = p := by
  simp [leaveStabledIfDue, stabledExitIsDue, hp, hline]

section
variable (hs : p.cab.state = .stabled) (hp : p.cab.pending = .drive) (hpass : p.cab.scrubPass = none)
  (hline : lineLost p = false)
include hs hp hpass hline

theorem leaveStabledIfDue_drive : leaveStabledIfDue p =
    if viewIsClear p.cab.view then beginActivation (stableSettle p) p
    else setFlag .cabConflict { p with cab := { p.cab with state := .inactive, pending := .none } } := by
  simp [leaveStabledIfDue, stabledExitIsDue, leaveStabled, hs, hp, hpass, hline]

end

end

/-- Settles O29: the scrub at a cycle start by the pass in progress; then the two events. -/
theorem stabledScrubsAndLeaves : Obligations.StabledScrubsAndLeaves := by
  refine ⟨fun p => scrubCycle_of_ne, fun s hs => ⟨fun hpass => ⟨fun hc => ?_, fun hc => ?_⟩,
    fun t next checked hpass last other intact damaged => ?_⟩, fun s hs => ⟨fun hpass hc => ⟨fun h => ?_, fun h => ?_⟩,
      fun hpass => ?_, fun hpass => ⟨fun hp => ?_, fun hp hline => ?_, fun hp hline =>
        ⟨fun hview => ?_, fun hi hst => ?_⟩⟩⟩⟩
  · rw [scrubCycle_between hs hpass, scrubIsDue_eq (p := scrubCounted s.part) hs hpass]
    exact if_neg (by rw [decide_eq_true_eq]; exact Nat.not_le.mpr hc)
  · rw [scrubCycle_between hs hpass]
    rfl
  · have after : tableAfter t = next := tableAfter_eq last other
    have scrubbed : scrubTable t (scrubCounted s.part) = checked := by
      by_cases h : tableSum (tableAt s.part.tables t).words = (tableAt s.part.tables t).ref
      · rw [intact h, scrubTable_intact (p := scrubCounted s.part) h, after]
        rfl
      · rw [damaged h, scrubTable_damaged (p := scrubCounted s.part) h, after]
        rfl
    rw [scrubCycle_passing hs hpass, scrubbed]
    refine ⟨fun ht => leaveStabledIfDue_scrubbing ?_, fun _ => exec_stabledExit _⟩
    obtain ⟨u, hu, -⟩ := other ht
    rw [← scrubbed]
    show tableAfter t ≠ none
    simp [after, hu]
  · rw [exec_scrubPassBegin, if_pos (by rw [scrubIsDue_eq hs hpass]; exact decide_eq_true hc), beginScrub,
      scrubTable_intact (p := { s.part with cab := { s.part.cab with scrubCount := 0 } }) (t := .slot) h]
    rfl
  · rw [exec_scrubPassBegin, if_pos (by rw [scrubIsDue_eq hs hpass]; exact decide_eq_true hc), beginScrub,
      scrubTable_damaged (p := { s.part with cab := { s.part.cab with scrubCount := 0 } }) (t := .slot) h]
    rfl
  · rw [exec_stabledExit, leaveStabledIfDue_scrubbing (Option.isSome_iff_ne_none.mp hpass)]
  · rw [exec_stabledExit, leaveStabledIfDue_wake hs hp hpass]
  · rw [exec_stabledExit, leaveStabledIfDue_lost hp hline]
  · obtain ⟨cab, line, slots, junction, stop, sound, tables⟩ :=
      beginActivation_frame (stableSettle s.part) s.part
    obtain ⟨-, demand, -⟩ := beginActivation_traction (stableSettle s.part) s.part
    refine ⟨beginActivation (stableSettle s.part) s.part, ?_, cab, by rw [demand], by rw [demand], line, slots,
      junction, stop, sound, tables⟩
    rw [exec_stabledExit, leaveStabledIfDue_drive hs hp hpass hline, if_pos ((viewIsClear_iff _).mpr hview)]
  · rw [exec_stabledExit, leaveStabledIfDue_drive hs hp hpass hline,
      if_neg fun hclear => ((viewIsClear_iff _).mp hclear).elim hi hst]

end Sys2Proof.Machine
end

section
/-! ## The desk lines and a recognised KEY (R44, R45, R49, R55, R58, R61, R65): O30 -/

namespace Sys2Proof.Machine

set_option Elab.async false

/-! ### The two-sample rule (R44) -/

section
variable {α : Type} [DecidableEq α]

/-- A sample that equals the one before it becomes the value. -/
theorem sampled_eq (r : Recogniser α) (v : α) :
    sampled r v = { value := if r.prev = some v then v else r.value, prev := some v } := by
  simp only [sampled, recognises, Bool.and_eq_true, decide_eq_true_eq, Recogniser.mk.injEq, and_true]
  split <;> simp_all

theorem recognises_iff {r : Recogniser α} {v : α} : recognises r v = true ↔ r.prev = some v ∧ r.value ≠ v := by
  simp [recognises]

theorem foldl_sampled_twice (r : Recogniser α) (xs : List α) (v : α) :
    ((xs ++ [v, v]).foldl sampled r).value = v := by
  simp [List.foldl_append, sampled_eq]

/-- A value that the samples change to stands twice in succession among them. -/
theorem foldl_sampled_changed (r : Recogniser α) (xs : List α) (h : (xs.foldl sampled r).value ≠ r.value) :
    ∃ ys zs, r.prev.toList ++ xs = ys ++ (xs.foldl sampled r).value :: (xs.foldl sampled r).value :: zs := by
  induction xs generalizing r with
  | nil => exact absurd rfl h
  | cons x xs ih =>
    rw [List.foldl_cons] at h ⊢
    by_cases later : (xs.foldl sampled (sampled r x)).value = (sampled r x).value
    · have changed : (if r.prev = some x then x else r.value) ≠ r.value := by
        rwa [later, sampled_eq] at h
      have seen : r.prev = some x := by
        by_contra hx
        exact changed (if_neg hx)
      refine ⟨[], xs, ?_⟩
      rw [later, sampled_eq, seen, if_pos rfl]
      rfl
    · obtain ⟨ys, zs, twice⟩ := ih (sampled r x) later
      have twice : x :: xs = _ := twice
      exact ⟨r.prev.toList ++ ys, zs, by rw [List.append_assoc, ← twice]⟩

end

/-! ### The levels of KEY and END (section 11.6) -/

theorem keyOf_eq {w : BitVec 2} {key : Key} (drive : key = .drive ↔ w = 2) (hold : key = .hold ↔ w = 1) :
    keyOf w = key := by
  cases key with
  | drive => rw [drive.mp rfl]; rfl
  | hold => rw [hold.mp rfl]; rfl
  | off =>
    unfold keyOf
    split
    next h => exact nomatch hold.mpr (BitVec.eq_of_toNat_eq h)
    next h => exact nomatch drive.mpr (BitVec.eq_of_toNat_eq h)
    next => rfl

theorem endOf_eq {high : Bool} {strap : CabEnd} (aft : strap = .aft ↔ high = true) : endOf high = strap := by
  cases strap with
  | aft => rw [aft.mp rfl]; rfl
  | fore => cases high with
    | false => rfl
    | true => exact nomatch aft.mpr rfl

/-! ### What a recognised KEY does in each cab state -/

section
variable {key : Key} {p : Part}

theorem keyRecognised_inactive (hs : p.cab.state = .inactive) :
    keyRecognised key p = attemptIfDue { p with cab := { p.cab with driveRequest := key == .drive } } := by
  unfold keyRecognised
  split
  case h_1 => rfl
  all_goals next h => cases hs.symm.trans h

theorem keyRecognised_activating (hs : p.cab.state = .activating) :
    keyRecognised key p = if key = .drive then p else activationEnds p := by
  unfold keyRecognised
  split
  case h_2 => rfl
  all_goals next h => cases hs.symm.trans h

theorem keyRecognised_active (hs : p.cab.state = .active) :
    keyRecognised key p = if key = .drive then keyReturnsToDrive p else keyLeavesDrive (exitFor key) p := by
  unfold keyRecognised
  split
  case h_3 => rfl
  all_goals next h => cases hs.symm.trans h

theorem keyRecognised_hold (hs : p.cab.state = .hold) :
    keyRecognised .drive p = returnFromHold p ∧ keyRecognised .off p = teardown p
      ∧ keyRecognised .hold p = p := by
  simp [keyRecognised, hs]

theorem keyRecognised_stabled (hs : p.cab.state = .stabled) :
    keyRecognised key p =
      if key = .drive then leaveStabledIfDue { p with cab := { p.cab with pending := .drive } }
      else if p.cab.pending = .drive then { p with cab := { p.cab with pending := .none } }
      else p := by
  unfold keyRecognised
  split
  case h_5 => rfl
  all_goals next h => cases hs.symm.trans h

theorem attemptIfDue_noRequest (h : p.cab.driveRequest = false) : attemptIfDue p = p := by
  simp [attemptIfDue, attemptIsDue, h]

/-- An activation that the key ends sets no flag and keeps the fault record (R55). -/
theorem activationEnds_ended (p : Part) :
    ActivationEnded [] p.cab.fault p (activationEnds p) ∧ (activationEnds p).line = p.line :=
  ⟨⟨rfl, fun f => (Bool.or_false _).symm, rfl, rfl, rfl, fun x => by cases x <;> rfl, rfl, rfl, rfl, rfl, rfl,
    rfl, rfl, rfl, rfl, rfl⟩, rfl⟩

theorem isAtRest_iff : isAtRest p = true ↔ p.traction.demand.v = 0 ∧ p.traction.demand.d ≤ 0 := by
  simp [isAtRest]

/-- The return from HOLD by the hold exit mode (R61, R85). -/
theorem returnFromHold_eq (p : Part) :
    returnFromHold p = { p with
      cab := { p.cab with state := .active }
      caps := { p.caps with
        cab := none
        speedLock := if p.cab.holdMode = .slow then some (creepCap p) else p.caps.speedLock }
      traction :=
        if p.cab.holdMode = .slow then { p.traction with suspended := false, locked := false, lockCount := 0 }
        else p.traction } := by
  unfold returnFromHold tractionResumes
  split
  next h =>
    have fast : p.cab.holdMode ≠ .slow := fun hslow => nomatch hslow.symm.trans h
    rw [if_neg fast, if_neg fast]
    rfl
  next h =>
    have slow : p.cab.holdMode = .slow := h
    rw [if_pos slow, if_pos slow]
    rfl

end

/-! ### The desk lines at a cycle start -/

/-- KEY and END sampled at given values. -/
def deskSampled (key : Key) (strap : CabEnd) (p : Part) : Part :=
  { p with cab := { p.cab with
      key := { value := if p.cab.key.prev = some key then key else p.cab.key.value, prev := some key }
      cabEnd := {
        value := if p.cab.cabEnd.prev = some strap then strap else p.cab.cabEnd.value
        prev := some strap } } }

section
variable {p : Part} {key : Key} {strap : CabEnd}

theorem deskCycle_eq (hkey : keyOf p.lines.key = key) (hend : endOf p.lines.aft = strap) :
    deskCycle p =
      if recognises p.cab.key key then keyRecognised key (deskSampled key strap p)
      else deskSampled key strap p := by
  rw [deskCycle, hkey, hend, sampled_eq, sampled_eq]
  rfl

end

/-- Settles O30: the two-sample rule, then the recognised KEY by the cab state. -/
theorem recognisedKeyActsByCabState : Obligations.RecognisedKeyActsByCabState := by
  refine ⟨fun r xs => ⟨fun v hr => ?_, fun v => foldl_sampled_twice r xs v, foldl_sampled_changed r xs⟩,
    fun _ _ => rfl, fun s key strap hdrive hhold haft => ?_⟩
  · rw [sampled_eq, hr]
    rfl
  intro cab q
  have desk := deskCycle_eq (keyOf_eq hdrive hhold) (endOf_eq haft)
  refine ⟨fun h => ?_, fun hprev hvalue => ?_⟩
  · rw [desk, if_neg fun hr => ?_]
    · rfl
    · obtain ⟨seen, changed⟩ := recognises_iff.mp hr
      exact h.elim (· seen) changed
  rw [if_pos (recognises_iff.mpr ⟨hprev, hvalue⟩)] at desk
  have desk : deskCycle s.part = keyRecognised key q := desk
  rw [desk]
  refine ⟨fun hs => ⟨fun hk => ?_, fun hk => ?_⟩, fun hs => ?_, fun hs => ?_, fun hs => ?_, fun hs => ?_⟩
  · rw [keyRecognised_inactive (p := q) hs, hk]
    rfl
  · rw [keyRecognised_inactive (p := q) hs, beq_eq_false_iff_ne.mpr hk]
    exact attemptIfDue_noRequest rfl
  · rw [keyRecognised_activating (p := q) hs]
    refine ⟨fun hk => if_pos hk, fun hk => ?_⟩
    rw [if_neg hk]
    exact activationEnds_ended q
  · rw [keyRecognised_active (p := q) hs]
    refine ⟨fun hk hp => ?_, fun hk hp => ?_, fun x hx => ?_⟩
    · rw [if_pos hk]
      exact if_pos hp
    · rw [if_pos hk]
      exact if_neg hp
    · have leaves : key ≠ .drive ∧ exitFor key = x := by
        rcases hx with ⟨rfl, rfl⟩ | ⟨rfl, rfl⟩ <;> exact ⟨nofun, rfl⟩
      rw [if_neg leaves.1, leaves.2, keyLeavesDrive]
      refine ⟨fun hp => if_neg hp, fun hp moves => ?_, fun hp hv hd => ?_⟩
      · have moving : ¬ isAtRest q = true := fun rest => by
          obtain ⟨hv, hd⟩ := isAtRest_iff.mp rest
          exact moves.elim (· hv) (not_lt.mpr hd)
        rw [if_pos hp, if_neg moving]
        rfl
      · have rest : isAtRest q = true := isAtRest_iff.mpr ⟨hv, hd⟩
        have due : exitIsDue { q with cab := { q.cab with pending := x } } = true := by
          have waits : (x == .hold || x == .off) = true := by
            rcases hx with ⟨-, rfl⟩ | ⟨-, rfl⟩ <;> rfl
          simp only [exitIsDue, exitWaits, waits, Bool.and_true, Bool.and_eq_true, beq_iff_eq]
          exact ⟨hs, rest⟩
        rw [if_pos hp, if_pos rest, exec_pendingExitTaken, if_pos due]
  · obtain ⟨drive, off, hold⟩ := keyRecognised_hold (p := q) hs
    refine ⟨fun hk => ?_, fun hk ok => ?_, fun hk => ?_⟩
    · rw [hk, drive, returnFromHold_eq]
      rfl
    · rw [hk, off]
      exact teardown_tornDown (p := q) ok.rowsFollowRecords
    · rw [hk, hold]
  · rw [keyRecognised_stabled (p := q) hs]
    refine ⟨fun hk => ?_, fun hk hp => ?_, fun hk hp => ?_⟩
    · rw [if_pos hk, exec_stabledExit]
    · rw [if_neg hk]
      exact if_pos hp
    · rw [if_neg hk]
      exact if_neg hp

end Sys2Proof.Machine
end

section
/-! ## The recognised lines and the counted sounds (R44, R89, R110, R153, R158, R160, R163, R171): O42 -/

namespace Sys2Proof.Machine

set_option Elab.async false

/-! ### The lines the other units sample (R89, R110, R171) -/

theorem recognises_eq_false {α : Type} [DecidableEq α] {r : Recogniser α} {v : α}
    (h : ¬ (r.prev = some v ∧ r.value ≠ v)) : recognises r v = false := by
  rw [← Bool.not_eq_true, recognises_iff]
  exact h

/-- A recognised press. -/
theorem recognises_press {r : Recogniser Bool} {level : Bool} :
    (recognises r level && level) = true ↔ level = true ∧ r.prev = some true ∧ r.value = false := by
  cases level <;> simp [recognises_iff]

/-- With no transfer outstanding a completion has nothing to do (R177). -/
theorem completeTransfer_none {p : Part} (h : outstanding p.tables = none) : completeTransfer p = p := by
  simp [completeTransfer, h]

theorem exec_transferCompletion_eq (s : State) :
    exec .transferCompletion s = .next { s with part := completeTransfer s.part } := by
  show when (fun p => (outstanding p.tables).isSome) completeTransfer s = _
  cases h : outstanding s.part.tables with
  | none => rw [when_false (by simp [h]), completeTransfer_none h]
  | some x => rw [when_true (by simp [h])]

section
variable {p : Part}

/-- The ACK button of the junction unit sampled. -/
def junctionAckSampled (p : Part) : Part :=
  { p with junction := { p.junction with ackBtn := sampled p.junction.ackBtn p.lines.ackBtn } }

theorem sampleJunctionAck_idle (h : ¬ (p.lines.ackBtn = true ∧ p.junction.ackBtn.prev = some true
    ∧ p.junction.ackBtn.value = false) ∨ cabLive p = false) :
    sampleJunctionAck p = junctionAckSampled p := by
  unfold sampleJunctionAck
  split
  next hr =>
    have dead : cabLive p = false := h.resolve_left fun hn => hn (recognises_press.mp hr)
    exact if_neg (c := cabLive p = true) (by rw [dead]; nofun)
  next => rfl

theorem sampleJunctionAck_pressed (h : p.lines.ackBtn = true ∧ p.junction.ackBtn.prev = some true
    ∧ p.junction.ackBtn.value = false) (live : cabLive p = true) :
    sampleJunctionAck p = { junctionAckSampled p with
      caps := { p.caps with overflow := none }
      sound := { p.sound with
        overflow := if p.caps.overflow = none then p.sound.overflow else false } } := by
  have alarm : (if p.caps.overflow.isSome then false else p.sound.overflow)
      = if p.caps.overflow = none then p.sound.overflow else false := by
    cases p.caps.overflow <;> rfl
  rw [sampleJunctionAck, if_pos (recognises_press.mpr h), ← alarm]
  exact if_pos (c := cabLive p = true) live

end

/-! ### The arbiter's decisions at a press of a button (R152, R155, R156) -/

theorem putSource_putSource (snd : Sound) (x : Source) (v w : SoundSource) :
    putSource (putSource snd x v) x w = putSource snd x w := by
  cases x <;> rfl

section
variable {cadence : List Word} {acts : Bool} {snd : Sound}

theorem requestSource_ignored {x : Source} (h : (getSource snd x).state ≠ .idle) :
    requestSource cadence acts x snd = snd := by
  simp [requestSource, h]

/-- DRIVER_BELL as a request leaves it before the arbiter decides. -/
def bellRequested (cadence : List Word) (snd : Sound) : Sound :=
  { snd with driverBell := { SoundSource.idle with
    state := .waiting
    pattern := patternOf cadence .driverBell
    passesLeft := (patternOf cadence .driverBell).repeats } }

theorem requestSource_bell (h : snd.driverBell.state = .idle) :
    requestSource cadence true .driverBell snd =
      if snd.depart.state = .playing then bellRequested cadence snd
      else startBest cadence (members .bell) (bellRequested cadence snd) := by
  have busy : playing (bellRequested cadence snd) .bell =
      if snd.depart.state = .playing then some .depart else none := by
    by_cases hd : snd.depart.state = .playing <;>
      simp [playing, members, isPlaying, getSource, bellRequested, SoundSource.idle, hd]
  have taken : requestSource cadence true .driverBell snd =
      match playing (bellRequested cadence snd) .bell with
      | none => startBest cadence (members .bell) (bellRequested cadence snd)
      | some _ => bellRequested cadence snd := by
    unfold requestSource
    rw [if_pos (by simpa [getSource] using h)]
    rfl
  rw [taken, busy]
  by_cases hd : snd.depart.state = .playing
  · rw [if_pos hd, if_pos hd]
  · rw [if_neg hd, if_neg hd]

/-- Requested with a pattern of steps, DRIVER_BELL latches it and waits for DEPART or plays at once. -/
theorem requestSource_bell_taken (h : snd.driverBell.state = .idle)
    (hsteps : (patternOf cadence .driverBell).steps ≠ 0) :
    (requestSource cadence true .driverBell snd).driverBell.pattern = patternOf cadence .driverBell
      ∧ (snd.depart.state = .playing →
        (requestSource cadence true .driverBell snd).driverBell.state = .waiting)
      ∧ (snd.depart.state ≠ .playing →
        playing (requestSource cadence true .driverBell snd) .bell = some .driverBell) := by
  rw [requestSource_bell h]
  by_cases hd : snd.depart.state = .playing
  · rw [if_pos hd]
    exact ⟨rfl, fun _ => rfl, absurd hd⟩
  · have begins : startBest cadence (members .bell) (bellRequested cadence snd)
        = beginStep cadence .driverBell (bellRequested cadence snd) :=
      startBest_first cadence (xs := []) (by simp) rfl hsteps
    rw [if_neg hd, begins]
    refine ⟨beginStep_pattern _ .driverBell _, (absurd · hd), fun _ => ?_⟩
    simp [playing, members, isPlaying]

/-! ### BELL_BTN (R158) -/

/-- A release mark that is not set is cleared already. -/
theorem releaseMark_cleared {src : SoundSource} (h : src.releaseMark = false) :
    { src with releaseMark := false } = src := by
  rw [← h]

theorem bellPressed_playing (h : snd.driverBell.state = .playing) :
    bellPressed cadence acts snd =
      { snd with driverBell := { snd.driverBell with releaseMark := false } } := by
  unfold bellPressed
  by_cases marked : snd.driverBell.releaseMark = true
  · rw [if_pos ⟨h, marked⟩]
  · rw [if_neg fun hn => marked hn.2, requestSource_ignored (by simp [getSource, h]),
      releaseMark_cleared (by simpa using marked)]

theorem bellPressed_requests (h : snd.driverBell.state ≠ .playing) :
    bellPressed cadence acts snd = requestSource cadence acts .driverBell snd :=
  if_neg fun hn => h hn.1

/-- A release takes a waiting DRIVER_BELL back and marks a PLAYING one. -/
theorem bellReleased_cases :
    (snd.driverBell.state = .idle → bellReleased snd = snd)
      ∧ (snd.driverBell.state = .waiting → bellReleased snd = { snd with driverBell := SoundSource.idle })
      ∧ (snd.driverBell.state = .playing →
        bellReleased snd = { snd with driverBell := { snd.driverBell with releaseMark := true } }) := by
  unfold bellReleased
  split
  next hs => exact ⟨fun h => (nomatch hs.symm.trans h), fun _ => rfl, fun h => (nomatch hs.symm.trans h)⟩
  next hs => exact ⟨fun h => (nomatch hs.symm.trans h), fun h => (nomatch hs.symm.trans h), fun _ => rfl⟩
  next hs => exact ⟨fun _ => rfl, fun h => (nomatch hs.symm.trans h), fun h => (nomatch hs.symm.trans h)⟩
  next hs => exact ⟨fun _ => rfl, fun h => (nomatch hs.symm.trans h), fun h => (nomatch hs.symm.trans h)⟩

section
variable {active level : Bool}

/-- The button sampled. -/
def bellSampled (level : Bool) (snd : Sound) : Sound :=
  { snd with bellBtn := sampled snd.bellBtn level }

theorem sampleBell_unrecognised (h : ¬ (snd.bellBtn.prev = some level ∧ snd.bellBtn.value ≠ level)) :
    sampleBell cadence active acts level snd = bellSampled level snd := by
  rw [sampleBell, recognises_eq_false h]
  rfl

theorem sampleBell_recognised (h : snd.bellBtn.prev = some level ∧ snd.bellBtn.value ≠ level) :
    sampleBell cadence active acts level snd =
      if level then (if active then bellPressed cadence acts (bellSampled level snd) else bellSampled level snd)
      else bellReleased (bellSampled level snd) :=
  if_pos (recognises_iff.mpr h)

end

/-! ### HORN_BTN (R163) -/

theorem hornRecognised_eq (level : Bool) (snd : Sound) :
    hornRecognised level snd =
      if snd.horn = .off ∧ level = true then { snd with horn := .on, hornCount := 0 }
      else if snd.horn = .stuck ∧ level = false then { snd with horn := .off }
      else snd := by
  unfold hornRecognised
  cases snd.horn <;> cases level <;> rfl

section
variable {level : Bool}

/-- The button sampled. -/
def hornSampled (level : Bool) (snd : Sound) : Sound :=
  { snd with hornBtn := sampled snd.hornBtn level }

theorem sampleHorn_idle (h : ¬ (snd.hornBtn.prev = some level ∧ snd.hornBtn.value ≠ level) ∨ acts = false) :
    sampleHorn acts level snd = hornSampled level snd := by
  refine if_neg fun hn => ?_
  obtain ⟨recognised, hacts⟩ := Bool.and_eq_true_iff.mp hn
  exact h.elim (· (recognises_iff.mp recognised)) (Bool.eq_false_iff.mp · hacts)

theorem sampleHorn_recognised (h : snd.hornBtn.prev = some level ∧ snd.hornBtn.value ≠ level)
    (hacts : acts = true) : sampleHorn acts level snd = hornRecognised level (hornSampled level snd) :=
  if_pos (Bool.and_eq_true_iff.mpr ⟨recognises_iff.mpr h, hacts⟩)

end

/-! ### ACK_BTN (R160) -/

section
variable {level : Bool}

/-- The button sampled. -/
def ackSampled (level : Bool) (snd : Sound) : Sound :=
  { snd with ackBtn := sampled snd.ackBtn level }

theorem sampleAck_unpressed (h : ¬ (level = true ∧ snd.ackBtn.prev = some true ∧ snd.ackBtn.value = false)) :
    sampleAck cadence level snd = ackSampled level snd :=
  if_neg fun hn => h (recognises_press.mp hn)

theorem sampleAck_pressed (h : level = true ∧ snd.ackBtn.prev = some true ∧ snd.ackBtn.value = false) :
    sampleAck cadence level snd = stopSource cadence .alarm (ackSampled level snd) :=
  if_pos (recognises_press.mpr h)

theorem stopSource_alarm_idle (h : snd.alarm.state = .idle) : stopSource cadence .alarm snd = snd := by
  simp [stopSource, getSource, h]

theorem stopSource_alarm_waiting (h : snd.alarm.state = .waiting) :
    stopSource cadence .alarm snd = { snd with alarm := SoundSource.idle } := by
  simp [stopSource, getSource, h, toIdle, putSource]

end

/-- Where all but the sources of the chime stands, only they differ. -/
theorem SameDesk.chime_differs {a b : Sound} (h : SameDesk a b) (driverBell : b.driverBell = a.driverBell)
    (depart : b.depart = a.depart) :
    b = { a with alarm := b.alarm, assist := b.assist, stop := b.stop } := by
  obtain ⟨h1, h2, h3, h4, h5, h6, h7, h8, h9⟩ := h
  cases a; cases b
  simp_all

/-- ALARM stopped while PLAYING: the arbiter decides between ASSIST and STOP. -/
theorem stopSource_alarm (h : snd.alarm.state = .playing) :
    stopSource cadence .alarm snd = startBest cadence [.assist, .stop] (toIdle .alarm snd) := by
  simp only [stopSource, getSource, h]
  rfl

theorem stopSource_alarm_ready (h : snd.alarm.state = .playing) (ok : ChannelsOk snd) {y : Source}
    (hy : y = .assist ∨ y = .stop) (ready : isReady snd y = true) (hsteps : (getSource snd y).pattern.steps ≠ 0)
    (first : y = .stop → isReady snd .assist = false) :
    playing (stopSource cadence .alarm snd) .chime = some y := by
  have alone : isPlaying snd .assist = false := by
    rw [← Bool.not_eq_true]
    exact fun hp => nomatch ok.1 .alarm .assist rfl (beq_iff_eq.mpr h) hp
  rw [stopSource_alarm h]
  rcases hy with rfl | rfl
  · have begins : startBest cadence [.assist, .stop] (toIdle .alarm snd)
        = beginStep cadence .assist (toIdle .alarm snd) :=
      startBest_first cadence (xs := []) (by simp) ready hsteps
    rw [begins]
    rfl
  · have begins : startBest cadence [.assist, .stop] (toIdle .alarm snd)
        = beginStep cadence .stop (toIdle .alarm snd) :=
      startBest_first cadence (xs := [.assist]) (List.forall_mem_singleton.mpr (first rfl)) ready hsteps
    have others : isPlaying (beginStep cadence .stop (toIdle .alarm snd)) .assist = false := alone
    rw [begins]
    simp only [playing, members, List.find?_cons, others]
    rfl

/-- The stop of ALARM leaves all but the sources of the chime, and ALARM IDLE. -/
theorem stopSource_alarm_frame (h : snd.alarm.state = .playing) :
    (stopSource cadence .alarm snd).alarm = SoundSource.idle
      ∧ stopSource cadence .alarm snd = { snd with
        alarm := (stopSource cadence .alarm snd).alarm
        assist := (stopSource cadence .alarm snd).assist
        stop := (stopSource cadence .alarm snd).stop } := by
  refine ⟨?_, (stopSource_desk cadence .alarm snd).chime_differs ?_ ?_⟩
  · rw [stopSource_alarm h]
    exact startBest_outside cadence (y := .alarm) (by decide) _
  · exact stopSource_other cadence (y := .driverBell) snd (by decide)
  · exact stopSource_other cadence (y := .depart) snd (by decide)

end

/-! ### The counts (R153, R163) -/

theorem departureRow_eq (before after : Sound) (row : Option Nat) :
    departureRow before after row =
      if (before.depart.state = .idle ↔ after.depart.state = .idle) then row
      else if after.depart.state = .idle then none else some 0 := by
  unfold departureRow
  by_cases hb : before.depart.state = .idle <;> by_cases ha : after.depart.state = .idle <;> simp [hb, ha]

/-- A source given another phase neither leaves nor enters IDLE. -/
theorem withSound_phase {p : Part} {x : Source} {v : SoundSource} (h : v.state = (getSource p.sound x).state) :
    withSound (putSource p.sound x v) p = { p with sound := putSource p.sound x v } := by
  have depart : (putSource p.sound x v).depart.state = p.sound.depart.state := by
    cases x with
    | depart => exact h
    | _ => rfl
  simp only [withSound, departureRow_same p.caps.departure (before := p.sound)
    (after := putSource p.sound x v) (by rw [depart])]

section
variable {s : State} {ch : Channel} {x : Source} {cadence : List Word} {snd : Sound}

theorem exec_phaseEnd (hx : playing s.part.sound ch = some x)
    (isOver : phaseIsOver (getSource s.part.sound x) = true) :
    exec (.phaseEnd ch) s = .next { s with part := { s.part with sound := endPhase x s.part.sound } } := by
  have ended : withSound (endPhase x s.part.sound) s.part = { s.part with sound := endPhase x s.part.sound } :=
    withSound_phase rfl
  show when (channelPhaseIsOver ch) (endChannelPhase ch) s = _
  rw [when_true (by simpa [channelPhaseIsOver, hx] using isOver), endChannelPhase, hx, ← ended]

/-- While the count of what plays is above 0 neither event occurs. -/
theorem exec_phaseEnd_stepEnd_counting
    (h : ∀ x, playing s.part.sound ch = some x → (getSource s.part.sound x).phaseCount ≠ 0) :
    exec (.phaseEnd ch) s = .next s ∧ exec (.stepEnd ch) s = .next s := by
  have counting : channelPhaseIsOver ch s.part = false ∧ channelStepIsOver ch s.part = false := by
    cases hx : playing s.part.sound ch with
    | none => simp [channelPhaseIsOver, channelStepIsOver, hx]
    | some x => simp [channelPhaseIsOver, channelStepIsOver, hx, phaseIsOver, stepIsOver, h x hx]
  exact ⟨when_false counting.1, when_false counting.2⟩

theorem countChannel_silent (h : playing snd ch = none) : countChannel cadence ch snd = snd := by
  simp [countChannel, h]

theorem countChannel_begun (hx : playing snd ch = some x) (h : (getSource snd x).begun = true) :
    countChannel cadence ch snd = snd := by
  simp [countChannel, hx, h]

theorem countChannel_counts (hx : playing snd ch = some x) (h : (getSource snd x).begun = false)
    (hc : 1 < (getSource snd x).phaseCount) :
    countChannel cadence ch snd = putSource snd x { getSource snd x with
      phaseCount := (getSource snd x).phaseCount - 1 } := by
  have above : (getSource snd x).phaseCount - 1 ≠ 0 := by omega
  simp [countChannel, hx, h, phaseIsOver, stepIsOver, above]

theorem countChannel_endsPhase (hx : playing snd ch = some x) (h : (getSource snd x).begun = false)
    (hc : (getSource snd x).phaseCount ≤ 1) (hon : (getSource snd x).phaseOn = true)
    (hoff : 0 < (getSource snd x).offCount) :
    countChannel cadence ch snd = putSource snd x { getSource snd x with
      phaseOn := false, phaseCount := (getSource snd x).offCount } := by
  have zero : (getSource snd x).phaseCount - 1 = 0 := by omega
  simp [countChannel, hx, h, phaseIsOver, endPhase, zero, hon, hoff, putSource_putSource]

end

section
variable {p : Part}

theorem hornIsStuck_iff (p : Part) : hornIsStuck p = true ↔
    p.sound.horn = .on ∧ p.sound.hornBtn.value = true ∧ hornMax p ≤ p.sound.hornCount := by
  simp [hornIsStuck, and_assoc]

theorem hornIsDone_iff (p : Part) : hornIsDone p = true ↔
    p.sound.horn = .on ∧ p.sound.hornBtn.value = false ∧ hornMin p ≤ p.sound.hornCount := by
  simp [hornIsDone, and_assoc]

/-- The on count one up, which stays at 3000. -/
def hornCounted (p : Part) : Part :=
  { p with sound := { p.sound with hornCount := min 3000 (p.sound.hornCount + 1) } }

theorem countHorn_off {wasOn : Bool} (h : p.sound.horn ≠ .on ∨ wasOn = false) : countHorn wasOn p = p :=
  if_neg fun hn => h.elim (· hn.1) (Bool.eq_false_iff.mp · hn.2)

theorem countHorn_on (h : p.sound.horn = .on) : countHorn true p =
    if hornIsStuck (hornCounted p) then cutHorn (hornCounted p)
    else if hornIsDone (hornCounted p) then endHorn (hornCounted p)
    else hornCounted p :=
  if_pos ⟨h, rfl⟩

end

/-! ### The parts of the statement -/

theorem hornCount_acts (wasOn : Bool) (p : Part) (hs : p.sound.horn = .on) (hw : wasOn = true) :
    (p.sound.hornBtn.value = true → hornMax p ≤ min 3000 (p.sound.hornCount + 1) →
        countHorn wasOn p = cutHorn (hornCounted p))
      ∧ (p.sound.hornBtn.value = false → hornMin p ≤ min 3000 (p.sound.hornCount + 1) →
        countHorn wasOn p = endHorn (hornCounted p))
      ∧ ((p.sound.hornBtn.value = true → min 3000 (p.sound.hornCount + 1) < hornMax p) →
        (p.sound.hornBtn.value = false → min 3000 (p.sound.hornCount + 1) < hornMin p) →
          countHorn wasOn p = hornCounted p) := by
  have stuck := hornIsStuck_iff (hornCounted p)
  have done := hornIsDone_iff (hornCounted p)
  rw [hw, countHorn_on hs]
  refine ⟨fun hb hc => if_pos (stuck.mpr ⟨hs, hb, hc⟩), fun hb hc => ?_, fun hmax hmin => ?_⟩
  · rw [if_neg fun h => ?_, if_pos (done.mpr ⟨hs, hb, hc⟩)]
    exact Bool.eq_false_iff.mp hb (stuck.mp h).2.1
  · rw [if_neg fun h => ?_, if_neg fun h => ?_]
    · obtain ⟨-, hb, hc⟩ := done.mp h
      exact Nat.not_lt.mpr hc (hmin hb)
    · obtain ⟨-, hb, hc⟩ := stuck.mp h
      exact Nat.not_lt.mpr hc (hmax hb)

/-- Settles O42: the lines of the other units, each button, the counts, and the events. -/
theorem recognisedLinesAndCountedSoundsAct : Obligations.RecognisedLinesAndCountedSoundsAct := by
  refine ⟨sampled_eq, fun s => ⟨rfl, exec_transferCompletion_eq _, ⟨sampleJunctionAck_pressed,
    sampleJunctionAck_idle⟩, rfl⟩, fun cadence active acts level snd => ⟨sampleBell_unrecognised,
      fun hr hl => ?_, fun hr hl => ?_⟩, fun acts level snd => ⟨fun h => ?_, fun hr ha => ?_⟩,
    fun cadence level snd => ⟨fun h => ?_, fun hp hs => ?_, fun hp hs ok => ?_⟩, fun snd p => ?_,
    fun wasOn p => ⟨countHorn_off, hornCount_acts wasOn p⟩, fun s => ⟨fun ch x hx hc hon hoff => ?_,
      fun ch => exec_phaseEnd_stepEnd_counting, fun ch cadence => countChannel_silent,
      fun ch x cadence hx => ⟨countChannel_begun hx, countChannel_counts hx, countChannel_endsPhase hx⟩,
      fun hs hb => ⟨fun hc => ?_, fun hc => ?_, ?_⟩, fun hs hb => ⟨fun hc => ?_, fun hc => ?_, ?_⟩⟩⟩
  · rw [sampleBell_recognised hr, if_pos hl]
    refine ⟨fun ha => if_neg (by rw [ha]; nofun), fun ha hp => ?_, fun ha hp => ?_⟩
    · rw [if_pos ha]
      exact bellPressed_playing (snd := bellSampled level snd) hp
    · rw [if_pos ha, bellPressed_requests (snd := bellSampled level snd) hp]
      refine ⟨rfl, fun hi => requestSource_ignored (x := .driverBell) hi, fun hi hacts hsteps => ?_⟩
      rw [hacts]
      exact requestSource_bell_taken (snd := bellSampled level snd) hi hsteps
  · rw [sampleBell_recognised hr, if_neg (by rw [hl]; nofun)]
    exact bellReleased_cases (snd := bellSampled level snd)
  · exact sampleHorn_idle h
  · rw [sampleHorn_recognised hr ha, hornRecognised_eq]
    rfl
  · by_cases hp : level = true ∧ snd.ackBtn.prev = some true ∧ snd.ackBtn.value = false
    · rw [sampleAck_pressed hp]
      exact stopSource_alarm_idle (snd := ackSampled level snd) (h.resolve_left (not_not.mpr hp))
    · exact sampleAck_unpressed hp
  · rw [sampleAck_pressed hp]
    exact stopSource_alarm_waiting (snd := ackSampled level snd) hs
  · rw [sampleAck_pressed hp]
    obtain ⟨alarm, frame⟩ := stopSource_alarm_frame (cadence := cadence) (snd := ackSampled level snd) hs
    exact ⟨alarm, fun y hy ready steps first =>
      stopSource_alarm_ready (snd := ackSampled level snd) hs ok hy ready steps first, frame⟩
  · rw [withSound, departureRow_eq]
  · exact exec_phaseEnd hx (by simp [phaseIsOver, hc, hon, hoff])
  · exact when_true ((hornIsDone_iff _).mpr ⟨hs, hb, hc⟩)
  · refine when_false (Bool.eq_false_iff.mpr fun h => ?_)
    obtain ⟨-, -, reached⟩ := (hornIsDone_iff _).mp h
    exact Nat.not_lt.mpr reached hc
  · refine when_false (Bool.eq_false_iff.mpr fun h => ?_)
    obtain ⟨-, held, -⟩ := (hornIsStuck_iff _).mp h
    exact Bool.eq_false_iff.mp hb held
  · exact when_true ((hornIsStuck_iff _).mpr ⟨hs, hb, hc⟩)
  · refine when_false (Bool.eq_false_iff.mpr fun h => ?_)
    obtain ⟨-, -, reached⟩ := (hornIsStuck_iff _).mp h
    exact Nat.not_lt.mpr reached hc
  · refine when_false (Bool.eq_false_iff.mpr fun h => ?_)
    obtain ⟨-, released, -⟩ := (hornIsDone_iff _).mp h
    exact Bool.eq_false_iff.mp released hb

end Sys2Proof.Machine
end

section
/-! ## The envelope loaded by triples (R174, R178, R179): O47 -/

namespace Sys2Proof.Machine

set_option Elab.async false

/-! ### ENVELOPE_POINTER (R178) -/

theorem envelopePointer_beyond (tag : Byte) {k : Word} (h : 16 ≤ k.toNat) (p : Part) :
    envelopePointer tag k p = respond tag 6 .range [] p :=
  dif_neg (Nat.not_lt.mpr h)

theorem envelopePointer_at (tag : Byte) {k : Word} {i : Fin 16} (h : i.val = k.toNat) (p : Part) :
    envelopePointer tag k p = respond tag 6 .ok [] (movePointer i .s [] p) := by
  have named : k.toNat < 16 := h ▸ i.isLt
  have same : (⟨k.toNat, named⟩ : Fin 16) = i := Fin.ext h.symm
  rw [envelopePointer, dif_pos named, same]

/-! ### The gates of ENVELOPE_DATA (R174, R179) -/

theorem all_between_iff (vs : List Word) : vs.all (between 0 1000) = true ↔ ∀ v ∈ vs, v.toNat ≤ 1000 := by
  simp [between]

section
variable {tag : Byte} {count : Nat} {values : List Word} {p : Part}

theorem envelopeData_gated {result : Result} (h : writeGate .envelope 0 p = some result) :
    envelopeData tag count values p = respond tag 7 result [] p := by
  simp only [envelopeData, h]

theorem envelopeData_outOfRange (h : writeGate .envelope 0 p = none)
    (hr : count < 1 ∨ 5 < count ∨ ∃ v ∈ padTo count values, 1000 < v.toNat) :
    envelopeData tag count values p = respond tag 7 .range [] p := by
  have refused : count < 1 ∨ 5 < count ∨ (padTo count values).all (between 0 1000) = false := by
    refine hr.imp_right (.imp_right fun ⟨v, hv, hlarge⟩ => ?_)
    rw [Bool.eq_false_iff, Ne, all_between_iff]
    exact fun hall => Nat.not_lt.mpr (hall v hv) hlarge
  simp only [envelopeData, h, if_pos refused]

theorem envelopeData_inRange (h : writeGate .envelope 0 p = none) (hlo : 1 ≤ count) (hhi : count ≤ 5)
    (hr : ∀ v ∈ padTo count values, v.toNat ≤ 1000) :
    envelopeData tag count values p = respond tag 7 .ok [] (takeValues (padTo count values) p) := by
  have accepted : ¬ (count < 1 ∨ 5 < count ∨ (padTo count values).all (between 0 1000) = false) := by
    rintro (hc | hc | hc)
    · omega
    · omega
    · exact Bool.eq_false_iff.mp hc ((all_between_iff _).mpr hr)
  simp only [envelopeData, h, if_neg accepted]

/-- One value in range. -/
theorem envelopeData_single (h : writeGate .envelope 0 p = none) {v : Word} (hv : v.toNat ≤ 1000)
    (rest : List Word) :
    envelopeData tag 1 (v :: rest) p = respond tag 7 .ok [] (takeValue v p) :=
  envelopeData_inRange h (Nat.le_refl 1) (by decide) (List.forall_mem_singleton.mpr hv)

end

/-! ### One value by the field of the pointer (R179) -/

section
variable {p : Part} (v : Word)

theorem takeValue_s (h : p.tables.field = .s) : takeValue v p = movePointer p.tables.pointer .t [v] p := by
  simp only [takeValue, h]

theorem takeValue_t (h : p.tables.field = .t) :
    takeValue v p = movePointer p.tables.pointer .b [wordAt p.tables.held 0, v] p := by
  simp only [takeValue, h]

/-- The triple that a B completes with the two held values. -/
def tripleImage (v : Word) (p : Part) : List Word := [wordAt p.tables.held 0, wordAt p.tables.held 1, v]

/-- The breakpoint that a B commits. -/
def tripleCommitted (v : Word) (p : Part) : Part :=
  commit .envelope p.tables.pointer.val (tripleImage v p) p

theorem takeValue_b (h : p.tables.field = .b) :
    takeValue v p = movePointer (p.tables.pointer + 1) .s [] (tripleCommitted v p) := by
  simp only [takeValue, h]
  rfl

/-- The table of the envelope after a B. -/
theorem tripleCommitted_envelope (p : Part) : (tripleCommitted v p).tables.envelope =
    committed .envelope p.tables.pointer.val (tripleImage v p) p.tables.envelope :=
  tableAt_commit_self .envelope _ _ p

/-- Outside ACTIVATING a B changes the table store alone. -/
theorem tripleCommitted_elsewhere (h : p.cab.state ≠ .activating) :
    tripleCommitted v p = { p with tables := (tripleCommitted v p).tables } := by
  have presented : tripleCommitted v p = presentChange .envelope p.tables.pointer.val
      (writtenPart .envelope p.tables.pointer.val (tripleImage v p) p) :=
    tableChanged_of_not_activating (p := presentChange .envelope p.tables.pointer.val
      (writtenPart .envelope p.tables.pointer.val (tripleImage v p) p)) h .envelope
  rw [presented]
  rfl

end

/-- Settles O47: the pointer, the gates, the values in turn, and one value by the pointer's field. -/
theorem envelopeIsLoadedByTriples : Obligations.EnvelopeIsLoadedByTriples := by
  intro s tag takes
  have pointer : ∀ k, exec (.envelopePointer tag k) s = .next { s with part := envelopePointer tag k s.part } :=
    fun k => by
      rw [← accept_of_takes takes 6 (envelopePointer tag k)]
      rfl
  have data : ∀ count values, exec (.envelopeData tag count values) s =
      .next { s with part := envelopeData tag count.toNat values s.part } := fun count values => by
    rw [← accept_of_takes takes 7 (envelopeData tag count.toNat values)]
    rfl
  refine ⟨fun k => ⟨fun hk => ?_, fun i hi => ?_⟩, fun count values => ⟨fun result hg => ?_,
    fun hg => ⟨fun hr => ?_, fun hlo hhi hr => ?_, fun v rest hvalues hcount hv => ?_⟩⟩⟩
  · rw [pointer, envelopePointer_beyond tag hk]
  · rw [pointer, envelopePointer_at tag hi]
    rfl
  · rw [data, envelopeData_gated hg]
  · rw [data, envelopeData_outOfRange hg hr]
  · rw [data, envelopeData_inRange hg hlo hhi hr]
    rfl
  · have single : exec (.envelopeData tag count values) s =
        .next { s with part := respond tag 7 .ok [] (takeValue v s.part) } := by
      rw [data, hvalues, hcount]
      exact congrArg (fun p => Host.Outcome.next { s with part := p }) (envelopeData_single hg hv rest)
    rw [single]
    refine ⟨fun hf => ?_, fun hf => ?_, fun hf => ⟨takeValue v s.part, rfl, ?_⟩⟩
    · rw [takeValue_s v hf]
      rfl
    · rw [takeValue_t v hf]
      rfl
    · have envelope := tripleCommitted_envelope v s.part
      have valid : (tripleCommitted v s.part).tables.envelopeValid = true
          ↔ EnvelopeInOrder (tripleCommitted v s.part) := commit_envelopeValid (.inr rfl) _ _ _
      obtain ⟨cab, -, -, flags⟩ := commit_activation (t := .envelope) (i := s.part.tables.pointer.val)
        (image := tripleImage v s.part) (p := s.part)
      rw [takeValue_b v hf]
      refine ⟨congrArg Table.words envelope, ?_, congrArg Table.faulty envelope,
        valid.trans (envelopeInOrder_congr rfl rfl), rfl, rfl, rfl, fun t ht => ?_, cab, flags, fun hs => ?_⟩
      · show (tripleCommitted v s.part).tables.envelope.ref = tableSum (tripleCommitted v s.part).tables.envelope.words
        rw [envelope]
        rfl
      · rw [← tableAt_commit_ne (Ne.symm ht) s.part.tables.pointer.val (tripleImage v s.part) s.part]
        cases t <;> rfl
      · exact congrArg (movePointer (s.part.tables.pointer + 1) .s []) (tripleCommitted_elsewhere v hs)

end Sys2Proof.Machine
end

section
/-! ## The permitted speed (R69): O31 -/

namespace Sys2Proof.Machine

set_option Elab.async false

/-! ### The parameters' ranges (R169) -/

/-- A parameter lies in the range that stands at its place. -/
theorem param_in_range {p : Part} (h : paramInRange p.tables.param.words = true) {i lo hi : Nat}
    (hr : paramRanges[i]? = some (lo, hi)) : lo ≤ param p i ∧ param p i ≤ hi := by
  obtain ⟨len, ranges⟩ := (wordsInRanges_iff _ _).mp h
  obtain ⟨inside, -⟩ := List.getElem?_eq_some_iff.mp hr
  have at_i := List.getElem?_eq_getElem (len ▸ inside)
  have word_i : wordAt p.tables.param.words i = p.tables.param.words[i] := by
    rw [wordAt, List.getD_eq_getElem?_getD, at_i, Option.getD_some]
  rw [param, word_i]
  exact ranges i _ lo hi at_i hr

theorem TablesOk.paramRange {p : Part} (h : TablesOk p) {i lo hi : Nat}
    (hr : paramRanges[i]? = some (lo, hi)) : lo ≤ param p i ∧ param p i ≤ hi :=
  param_in_range h.2.1 hr

theorem TablesOk.line {p : Part} (h : TablesOk p) : p.caps.line = lineCap p := by
  obtain ⟨-, -, -, -, -, -, line, -⟩ := h
  exact line

/-! ### The first row that holds P -/

/-- A search that finds no lesser value keeps the row from which it started. -/
theorem formP_source_of_eq (c : CapTable) (rs : List Row) (best : Nat × Row)
    (hbest : getRow c best.2 = some best.1) (h : (formP c rs best).1 = best.1) :
    (formP c rs best).2 = best.2 := by
  induction rs generalizing best with
  | nil => rfl
  | cons x xs ih =>
    unfold formP at h ⊢
    cases hx : getRow c x with
    | none =>
      simp only [hx] at h
      exact ih best hbest h
    | some v =>
      simp only [hx] at h
      by_cases hv : v < best.1
      · simp only [if_pos hv] at h
        obtain ⟨atMost, -⟩ := formP_spec c xs (v, x) hx
        exact absurd (h ▸ atMost) (Nat.not_le.mpr hv)
      · simp only [if_neg hv] at h ⊢
        exact ih best hbest h

/-- Of the later rows, in order, that hold the value found, none comes before the source. -/
theorem formP_source_first (c : CapTable) (rs : List Row) (best : Nat × Row)
    (hbest : getRow c best.2 = some best.1) (hbefore : ∀ r ∈ rs, rowCode best.2 < rowCode r)
    (hsorted : rs.Pairwise (rowCode · < rowCode ·)) :
    ∀ r ∈ rs, getRow c r = some (formP c rs best).1 → rowCode (formP c rs best).2 ≤ rowCode r := by
  induction rs generalizing best with
  | nil => simp
  | cons x xs ih =>
    obtain ⟨hx_before, hsorted⟩ := List.pairwise_cons.mp hsorted
    have rest := ih best hbest (fun r hr => hbefore r (List.mem_cons_of_mem x hr)) hsorted
    unfold formP
    rw [List.forall_mem_cons]
    cases hx : getRow c x with
    | none => exact ⟨nofun, rest⟩
    | some v =>
      by_cases hv : v < best.1
      · simp only [if_pos hv]
        refine ⟨fun hrow => ?_, ih (v, x) hx hx_before hsorted⟩
        have same : (formP c xs (v, x)).2 = x :=
          formP_source_of_eq c xs (v, x) hx (Option.some.inj hrow).symm
        exact (congrArg rowCode same).le
      · simp only [if_neg hv]
        refine ⟨fun hrow => ?_, rest⟩
        obtain ⟨atMost, -⟩ := formP_spec c xs best hbest
        have least : best.1 ≤ (formP c xs best).1 := Option.some.inj hrow ▸ Nat.not_lt.mp hv
        rw [formP_source_of_eq c xs best hbest (Nat.le_antisymm atMost least)]
        exact (hbefore x (List.mem_cons_self ..)).le

theorem mem_laterRows {r : Row} (h : r ≠ .line) : r ∈ laterRows := by
  cases r with
  | line => exact absurd rfl h
  | junction pos => fin_cases pos <;> simp [laterRows]
  | _ => simp [laterRows]

theorem laterRows_sorted : laterRows.Pairwise (rowCode · < rowCode ·) := by
  decide

theorem permittedSpeed_le_line (p : Part) : permittedSpeed p ≤ p.caps.line :=
  (formP_spec p.caps laterRows (p.caps.line, .line) rfl).1

theorem permittedSpeed_le_row {p : Part} {r : Row} {v : Nat} (h : getRow p.caps r = some v) :
    permittedSpeed p ≤ v := by
  by_cases hr : r = .line
  · subst hr
    exact Option.some.inj h ▸ permittedSpeed_le_line p
  · obtain ⟨-, -, least⟩ := formP_spec p.caps laterRows (p.caps.line, .line) rfl
    exact least r (mem_laterRows hr) v h

theorem getRow_capSource (p : Part) : getRow p.caps (capSource p) = some (permittedSpeed p) := by
  obtain ⟨-, holds, -⟩ := formP_spec p.caps laterRows (p.caps.line, .line) rfl
  exact holds

/-- Of the rows that hold P the cap source is the first (R69). -/
theorem capSource_first {p : Part} {r : Row} (h : getRow p.caps r = some (permittedSpeed p)) :
    rowCode (capSource p) ≤ rowCode r := by
  by_cases hr : r = .line
  · subst hr
    have line : capSource p = .line :=
      formP_source_of_eq p.caps laterRows (p.caps.line, .line) rfl (Option.some.inj h).symm
    rw [line]
  · have line_before : ∀ r ∈ laterRows, rowCode .line < rowCode r := by decide
    exact formP_source_first p.caps laterRows (p.caps.line, .line) rfl line_before laterRows_sorted r
      (mem_laterRows hr) h

/-- Settles O31: P and the cap source by the search over the rows, and the LINE row by the parameter. -/
theorem permittedSpeedIsTheLeastRow : Obligations.PermittedSpeedIsTheLeastRow := by
  intro p
  refine ⟨fun r v h => permittedSpeed_le_row h, getRow_capSource p, fun r h => capSource_first h,
    fun ok => ⟨?_, (ok.paramRange (i := 0) rfl).2⟩, fun ⟨r, h⟩ => Nat.le_zero.mp (permittedSpeed_le_row h)⟩
  exact ok.line ▸ permittedSpeed_le_line p

end Sys2Proof.Machine
end

section
/-! ## The RESTRICT row (R68, R74, R75): O49

The operations of the blocks keep the row by `UnitFrame`. What is left are the management commands, the cells
in an open slot, and the line interface. -/

namespace Sys2Proof.Machine

set_option Elab.async false

/-! ### SET_RESTRICTION (R74) -/

theorem exec_setRestriction {tag : Byte} {s : State} (h : Takes tag s.part) (action value : Word) :
    exec (.setRestriction tag action value) s =
      .next { s with part := setRestrictionCommand tag action value s.part } := by
  show Host.Outcome.next { s with part := accept tag 12 (setRestrictionCommand tag action value) s.part } = _
  rw [accept_of_takes h]

/-! ### The management commands (chapter 10) -/

section
variable (tag : Byte) (p : Part)

theorem accept_restrict (code : Byte) {take : Part → Part}
    (h : ∀ q, (take q).caps.restrict = q.caps.restrict) :
    (accept tag code take p).caps.restrict = p.caps.restrict := by
  rcases accept_cases tag code take p with ⟨-, e⟩ | ⟨-, -, e⟩ | ⟨-, -, e⟩ <;> rw [e]
  · exact h p
  · simp [refuseSequence]

theorem acceptLock_restrict (code : Byte) {take : Part → Part}
    (h : ∀ q, (take q).caps.restrict = q.caps.restrict) :
    (acceptLock tag code take p).caps.restrict = p.caps.restrict := by
  rcases acceptLock_cases tag code take p with ⟨-, e⟩ | ⟨-, -, e⟩ | ⟨-, -, e⟩ <;> rw [e]
  · exact h (disarm p)
  · simp [refuseSequence]

@[simp] theorem statusCommand_caps (page : Word) : (statusCommand tag page p).caps = p.caps := by
  unfold statusCommand
  split <;> simp

@[simp] theorem clearStatusCommand_caps : (clearStatusCommand tag p).caps = p.caps := by
  simp [clearStatusCommand]

@[simp] theorem writeStage_caps (offset count : Nat) (ws : List Word) :
    (writeStage tag offset count ws p).caps = p.caps := by
  unfold writeStage
  split
  · simp
  all_goals split <;> simp

@[simp] theorem stageTransfer_caps (x : Transfer) : (stageTransfer x p).caps = p.caps := by
  unfold stageTransfer
  split <;> simp

@[simp] theorem transfer_caps (table index : Word) : (transfer tag table index p).caps = p.caps := by
  unfold transfer
  split
  · simp
  · split <;> simp

@[simp] theorem readEntryCommand_caps (table index offset : Word) :
    (readEntryCommand tag table index offset p).caps = p.caps := by
  unfold readEntryCommand
  split
  · simp
  · split <;> simp

@[simp] theorem envelopePointer_caps (breakpoint : Word) :
    (envelopePointer tag breakpoint p).caps = p.caps := by
  unfold envelopePointer
  split <;> simp

@[simp] theorem lockSetupCommand_caps : (lockSetupCommand tag p).caps = p.caps := by
  simp [lockSetupCommand]

@[simp] theorem readRecordCommand_caps (index page : Word) :
    (readRecordCommand tag index page p).caps = p.caps := by
  unfold readRecordCommand
  split
  · dsimp only
    split <;> simp
  · simp

@[simp] theorem stableCommand_caps : (stableCommand tag p).caps = p.caps := by
  unfold stableCommand
  split
  · split <;> simp [enterStabled]
  · simp

@[simp] theorem unknownCommand_caps (code : Byte) : (unknownCommand tag code p).caps = p.caps :=
  respond_caps ..

@[simp] theorem lockCommand_caps {act : TableId → Part → Part × Result}
    (h : ∀ t q, (act t q).1.caps = q.caps) (code : Byte) (table : Word) :
    (lockCommand act tag code table p).caps = p.caps := by
  unfold lockCommand
  split
  · simp
  · simp [h]

end

section
variable (t : TableId) (p : Part)

@[simp] theorem lockTable_caps : (lockTable t p).1.caps = p.caps := by
  unfold lockTable
  split <;> simp

@[simp] theorem unlockTable_caps : (unlockTable t p).1.caps = p.caps := by
  unfold unlockTable
  split
  · rfl
  · split <;> simp
  · split
    · rfl
    · split <;> simp

@[simp] theorem lockDownTable_caps : (lockDownTable t p).1.caps = p.caps := withLock_caps t .lockedDown p

end

/-- A committed change leaves the row, whatever the table's lock. -/
theorem commit_restrict (t : TableId) (i : Nat) (image : List Word) (p : Part) :
    (commit t i image p).caps.restrict = p.caps.restrict :=
  (tableChanged_unitFrame t _).restrict.trans (presentChange_unitFrame t i _).restrict

theorem takeValue_restrict (v : Word) (p : Part) : (takeValue v p).caps.restrict = p.caps.restrict := by
  cases h : p.tables.field with
  | s => rw [takeValue_s v h, movePointer_caps]
  | t => rw [takeValue_t v h, movePointer_caps]
  | b =>
    rw [takeValue_b v h, movePointer_caps]
    exact commit_restrict _ _ _ p

theorem takeValues_restrict (vs : List Word) (p : Part) :
    (takeValues vs p).caps.restrict = p.caps.restrict := by
  unfold takeValues
  induction vs generalizing p with
  | nil => rfl
  | cons v vs ih => exact (ih _).trans (takeValue_restrict v p)

theorem envelopeData_restrict (tag : Byte) (count : Nat) (values : List Word) (p : Part) :
    (envelopeData tag count values p).caps.restrict = p.caps.restrict := by
  unfold envelopeData
  split
  · rw [respond_caps]
  · dsimp only
    split
    · rw [respond_caps]
    · rw [respond_caps]
      exact takeValues_restrict _ p

theorem wakeCommand_restrict (tag : Byte) (p : Part) :
    (wakeCommand tag p).caps.restrict = p.caps.restrict := by
  unfold wakeCommand
  split
  · rw [respond_caps]
    exact (leaveStabledIfDue_unitFrame _).restrict
  · rw [respond_caps]

/-! ### Cells and openings (chapter 2) -/

section
variable {g : Governing} (h : g.entry.fn ≠ .mgmtIn) (lane : Lane) (c : Cell) (p : Part)
include h

/-- A store of another function than MGMT_IN carries no command. -/
theorem storeCell_restrict : (storeCell g lane c p).caps.restrict = p.caps.restrict :=
  (deliver_unitFrame g.index h c.kind _ _).restrict

theorem observeCell_restrict : (observeCell g lane c p).caps.restrict = p.caps.restrict := by
  unfold observeCell pairCell
  split
  · rfl
  · dsimp only
    split
    · split
      · rfl
      · exact storeCell_restrict h lane c _
    · split <;> rfl
  · split
    · exact storeCell_restrict h lane c p
    · rfl
  · split
    · exact storeCell_restrict h lane c p
    · rfl

theorem disposeCell_restrict (words : List Word) (valid : Bool) :
    (disposeCell g lane words c valid p).1.caps.restrict = p.caps.restrict := by
  have observed : (observeCell g lane c (setOutcome g lane .valid p)).caps.restrict = p.caps.restrict :=
    observeCell_restrict h lane c _
  cases hd : appliedDisposition p.cab.state g.entry with
  | pass => rw [disposeCell_pass _ _ _ _ hd, setOutcome_caps]
  | observe =>
    rw [disposeCell_observe _ _ _ _ hd]
    cases valid with
    | false => rfl
    | true => exact observed
  | take =>
    cases valid with
    | false => rw [disposeCell_replaced _ _ _ (.inl hd), setOutcome_caps]
    | true =>
      cases ha : addressed c p with
      | false => rw [disposeCell_take_other _ _ _ hd ha, setOutcome_caps]
      | true => rw [disposeCell_take_addressed _ _ _ hd ha, observed]
  | rewrite =>
    cases valid with
    | false => rw [disposeCell_replaced _ _ _ (.inr hd), setOutcome_caps]
    | true => rw [disposeCell_rewrite _ _ _ hd, observed]
  | own => rw [disposeCell_own _ _ _ _ hd, putRecord_caps]

end

@[simp] theorem closeSlot_caps (p : Part) : (closeSlot p).caps = p.caps := by
  rw [closeSlot_eq]

@[simp] theorem openSlot_caps (slot : Six) (p : Part) : (openSlot slot p).caps = p.caps :=
  (openSlot_sendingFrame slot p).caps

@[simp] theorem slotTimer_caps (p : Part) : (slotTimer p).caps = p.caps := by
  unfold slotTimer
  split <;> simp

/-! ### The line interface (chapter 1) -/

@[simp] theorem settleLanes_caps (down up : Bool) (p : Part) : (settleLanes down up p).caps = p.caps := rfl

@[simp] theorem endCycle_caps (p : Part) : (endCycle p).caps = p.caps := by
  simp [endCycle]

theorem decideLanes_restrict (down up : Bool) (p : Part) :
    (decideLanes down up p).caps.restrict = p.caps.restrict :=
  (presentLoss_unitFrame _ _).restrict

/-- A cycle start and its changes of cab state keep the row. -/
theorem beaconStart_restrict (lane : Lane) (cycle : Six) (order : List Work) (p : Part) :
    (beaconStart lane cycle order p).caps.restrict = p.caps.restrict := by
  refine (presentCycle_unitFrame _ order _).restrict.trans ?_
  simp [takeBeacon]

theorem substituteStart_restrict (order : List Work) (p : Part) :
    (substituteStart order p).caps.restrict = p.caps.restrict := by
  refine (presentCycle_unitFrame _ order _).restrict.trans ?_
  simp

theorem beaconArrival_restrict (lane : Lane) (cycle : Six) (order : List Work) (p : Part) :
    (beaconArrival lane cycle order p).caps.restrict = p.caps.restrict := by
  have started := beaconStart_restrict lane cycle order p
  unfold beaconArrival classifyBeacon
  split
  · split
    · split
      · rfl
      · exact started
    · split
      · rfl
      · split
        · rfl
        · exact started
  · exact started

theorem driveOut_caps (lane : Lane) (x : Part × Option (List Word)) : (driveOut lane x).caps = x.1.caps := by
  unfold driveOut
  split <;> simp

section
variable {p : Part} (h : ∀ g, p.slots.governing = some g → g.entry.fn ≠ .mgmtIn) (lane : Lane)
  (words : List Word) (c : Cell)
include h

theorem handOver_restrict (valid : Bool) :
    (handOver lane words c valid p).1.caps.restrict = p.caps.restrict := by
  unfold handOver
  split
  · next g hg => exact disposeCell_restrict (h g hg) lane c p words valid
  · rfl

/-- The judging of a cell changes its lane alone. -/
theorem slotArrival_restrict (slot : Six) (intact : Bool) :
    (slotArrival slot lane words c intact p).caps.restrict = p.caps.restrict := by
  unfold slotArrival
  dsimp only
  rw [driveOut_caps]
  cases intact && passesSchedule slot lane c p with
  | true => exact handOver_restrict (p := markHanded lane p) h lane words c true
  | false => exact handOver_restrict (p := markHanded lane (countError lane p)) h lane words c false

/-- A cell that is no valid beacon, where no entry of function MGMT_IN governs. -/
theorem cellArrivalIn_restrict (intact : Bool) :
    (cellArrivalIn lane words c intact p).caps.restrict = p.caps.restrict := by
  unfold cellArrivalIn
  split
  · split
    · simp
    · exact slotArrival_restrict h lane words c _ intact
  · rw [drive_caps]
    split <;> rfl

end

theorem arrive_restrict (lane : Lane) (words : List Word) (order : List Work) {p : Part}
    (h : (beaconCycle words).isSome = true ∨ ∀ g, p.slots.governing = some g → g.entry.fn ≠ .mgmtIn) :
    (arrive lane words order p).caps.restrict = p.caps.restrict := by
  cases hb : beaconCycle words with
  | some cycle =>
    rw [arrive_beacon hb, drive_caps]
    exact beaconArrival_restrict lane cycle order p
  | none =>
    have ungoverned := h.resolve_left (by simp [hb])
    rcases arrive_other hb lane order p with ⟨c, -, e⟩ | ⟨-, c, e⟩ <;>
      exact e ▸ cellArrivalIn_restrict ungoverned lane words c _

/-! ### Every command -/

theorem onPart_restrict {f : Part → Part} {s t : State} (h : (f s.part).caps.restrict = s.part.caps.restrict)
    (e : (Host.Outcome.next (s.onPart f) : Host.Outcome State Fault Refusal) = .next t) :
    t.part.caps.restrict = s.part.caps.restrict := by
  cases e
  exact h

/-- An event inside a block, by the frame of its operation. -/
theorem when_restrict {c : Part → Bool} {f : Part → Part} (h : ∀ p, UnitFrame p (f p)) {s t : State}
    (e : when c f s = .next t) : t.part.caps.restrict = s.part.caps.restrict :=
  onPart_restrict (UnitFrame.ite (h s.part) (.refl s.part)).restrict e

/-- Every command but power-on reset, SET_RESTRICTION and RESTART keeps the row, and a cell where no entry of
function MGMT_IN governs. -/
theorem exec_restrict {c : Instr} {s t : State} (hreset : ∀ lines, c ≠ .powerOnReset lines)
    (hcell : ∀ lane words lines order, c = .cellArrival lane words lines order →
      (beaconCycle words).isSome = true ∨ ∀ g, s.part.slots.governing = some g → g.entry.fn ≠ .mgmtIn)
    (hset : ∀ tag action value, c ≠ .setRestriction tag action value)
    (hrestart : ∀ tag lines, c ≠ .restart tag lines) (e : exec c s = .next t) :
    t.part.caps.restrict = s.part.caps.restrict := by
  cases c with
  | powerOnReset lines => exact absurd rfl (hreset lines)
  | cellArrival lane words lines order =>
    refine onPart_restrict ?_ e
    split
    · exact arrive_restrict lane words order (hcell lane words lines order rfl)
    · rfl
  | substituteCycleStart lines order =>
    refine onPart_restrict ?_ e
    split
    · exact substituteStart_restrict order _
    · rfl
  | slotOpening => exact onPart_restrict (by rw [slotTimer_caps]) e
  | laneDown => exact onPart_restrict (decideLanes_restrict _ _ _) e
  | laneUp => exact onPart_restrict (decideLanes_restrict _ _ _) e
  | otherCabTimeout => exact when_restrict (takeView_unitFrame _) e
  | activationAttempt => exact when_restrict attempt_unitFrame e
  | settleComplete => exact when_restrict (fun _ => .update) e
  | brakeTimeout => exact when_restrict (activationFails_unitFrame _ _ _) e
  | entryToActive => exact when_restrict enterActive_unitFrame e
  | pendingExitTaken => exact when_restrict takeExit_unitFrame e
  | scrubPassBegin => exact when_restrict (fun _ => .trans .update (scrubTable_unitFrame _ _)) e
  | stabledExit => exact when_restrict leaveStabled_unitFrame e
  | speedSourceStale => exact when_restrict speedGoesStale_unitFrame e
  | speedLockAcquired => exact when_restrict speedLocks_unitFrame e
  | selectionTimeout => exact when_restrict (select_unitFrame 0) e
  | requestTimeout pos => exact when_restrict (timeOut_unitFrame pos) e
  | doorStatusStale => exact when_restrict (setRow_unitFrame (r := .doors) (by decide) 0) e
  | phaseEnd ch => exact when_restrict (endChannelPhase_unitFrame ch) e
  | stepEnd ch => exact when_restrict (endChannelStep_unitFrame ch) e
  | hornMinReached => exact when_restrict (fun _ => .update) e
  | hornStuck => exact when_restrict cutHorn_unitFrame e
  | transferCompletion => exact when_restrict completeTransfer_unitFrame e
  | status tag page => exact onPart_restrict (accept_restrict _ _ _ (by simp)) e
  | clearStatus tag => exact onPart_restrict (accept_restrict _ _ _ (by simp)) e
  | writeStage tag offset count words => exact onPart_restrict (accept_restrict _ _ _ (by simp)) e
  | transfer tag table index => exact onPart_restrict (accept_restrict _ _ _ (by simp)) e
  | readEntry tag table index offset => exact onPart_restrict (accept_restrict _ _ _ (by simp)) e
  | envelopePointer tag breakpoint => exact onPart_restrict (accept_restrict _ _ _ (by simp)) e
  | envelopeData tag count values =>
    exact onPart_restrict (accept_restrict _ _ _ (envelopeData_restrict _ _ _)) e
  | lockSetup tag => exact onPart_restrict (accept_restrict _ _ _ (by simp)) e
  | lock tag table => exact onPart_restrict (acceptLock_restrict _ _ _ (by simp)) e
  | unlock tag table => exact onPart_restrict (acceptLock_restrict _ _ _ (by simp)) e
  | lockDown tag table => exact onPart_restrict (acceptLock_restrict _ _ _ (by simp)) e
  | setRestriction tag action value => exact absurd rfl (hset tag action value)
  | readRecord tag index page => exact onPart_restrict (accept_restrict _ _ _ (by simp)) e
  | stable tag => exact onPart_restrict (accept_restrict _ _ _ (by simp)) e
  | wake tag => exact onPart_restrict (accept_restrict _ _ _ (wakeCommand_restrict _)) e
  | restart tag lines => exact absurd rfl (hrestart tag lines)
  | unknownCommand tag code => exact onPart_restrict (accept_restrict _ _ _ (by simp)) e

/-- Settles O49: the command by its action and value, and the row by cases on the other commands. -/
theorem restrictionStandsUntilItIsChanged : Obligations.RestrictionStandsUntilItIsChanged :=
  ⟨fun _ _ action value takes => exec_setRestriction takes action value,
    fun _ _ _ hreset hcell hset hrestart => exec_restrict hreset hcell hset hrestart⟩

end Sys2Proof.Machine
end

section
/-! ## What the tables in order give: the entries' places, the images and the demand (R91, R100, R168, R175)

The facts that O58 needs of a single state. -/

namespace Sys2Proof.Machine

set_option Elab.async false

/-! ### Entries and images (R168, R175) -/

/-- An entry of a table lies within the table's words. -/
theorem entry_fits {t : TableId} {i : Nat} (h : i < entryCount t) :
    entryStart t i + entrySize t i ≤ tableSize t := by
  cases t with
  | cadence =>
    simp only [entryCount] at h
    simp only [entryStart, entrySize, tableSize]
    split <;> omega
  | _ =>
    simp only [entryCount] at h
    simp only [entryStart, entrySize, tableSize]
    omega

/-- An entry is no longer than the staging buffer. -/
theorem entrySize_le (t : TableId) (i : Nat) : entrySize t i ≤ 24 := by
  cases t with
  | cadence =>
    unfold entrySize
    dsimp only
    split <;> omega
  | _ => simp [entrySize]

/-- An image that a committed change can write: it has the entry's words, those of PARAM in their ranges and
those of a breakpoint up to 1000. -/
structure ImageOk (t : TableId) (i : Nat) (image : List Word) : Prop where
  index : i < entryCount t
  length : image.length = entrySize t i
  param : t = .param → paramInRange image = true
  envelope : t = .envelope → image.all (between 0 1000) = true

/-- The image of a waiting transfer (R174, R175). -/
theorem WaitsOk.imageOk {x : Transfer} {buffer : List Word} (h : WaitsOk x buffer)
    (hlen : buffer.length = 24) : ImageOk x.table x.index (buffer.take (entrySize x.table x.index)) := by
  obtain ⟨staged, index, range⟩ := h
  refine ⟨index, ?_, fun ht => ?_, fun ht => absurd ht staged⟩
  · rw [List.length_take, hlen]
    exact Nat.min_eq_left (entrySize_le _ _)
  · rw [ht] at range ⊢
    exact range

/-- A word written over others is one of the image's, or stood there. -/
theorem mem_overwrite {ws image : List Word} {start : Nat} {w : Word} (h : w ∈ overwrite ws start image) :
    w ∈ ws ∨ w ∈ image := by
  rw [overwrite, List.mem_append, List.mem_append] at h
  rcases h with (h | h) | h
  · exact .inl (List.mem_of_mem_take h)
  · exact .inr h
  · exact .inl (List.mem_of_mem_drop h)

/-- An image as long as the words replaces them all. -/
theorem overwrite_all {ws image : List Word} (h : image.length = ws.length) : overwrite ws 0 image = image := by
  simp [overwrite, h]

theorem wordAt_between {ws : List Word} (h : ws.all (between 0 1000) = true) (i : Nat) :
    between 0 1000 (wordAt ws i) = true := by
  rw [wordAt, List.getD_eq_getElem?_getD]
  cases hw : ws[i]? with
  | none => rfl
  | some w => exact List.all_eq_true.mp h w (List.mem_of_getElem? hw)

/-! ### The demand (R94 to R98) -/

/-- A demand within the range of the DEMAND_OUT content (R100). -/
def InDemand (x : Int) : Prop := -1000 ≤ x ∧ x ≤ 1000

theorem demandOk_iff (p : Part) : DemandOk p ↔ InDemand p.traction.dPrev ∧ InDemand p.traction.demand.d :=
  and_assoc.symm

/-- A brake of a parameter up to 1000. -/
theorem inDemand_brake {n : Nat} (h : n ≤ 1000) : InDemand (-(n : Int)) :=
  ⟨by omega, by omega⟩

theorem inDemand_handle (w : Word) : InDemand (handleOf w) := by
  unfold InDemand handleOf clampHandle
  omega

theorem handleTarget_inDemand {p : Part} (h : TablesOk p) : InDemand (handleTarget p).x := by
  unfold handleTarget
  split
  · exact inDemand_handle _
  · exact inDemand_brake (h.paramRange (i := 5) rfl).2

theorem superviseTarget_inDemand (outcome : Supervision) {force : Nat} (hf : force ≤ 1000) {t : Target}
    (h : InDemand t.x) : InDemand (superviseTarget outcome force t).x := by
  cases outcome with
  | none => exact h
  | cut => exact ⟨le_min h.1 (by decide), (min_le_left _ _).trans h.2⟩
  | forced => exact inDemand_brake hf

/-- A limit that is not negative makes no target greater. -/
theorem shape_inDemand {lim : Int × Int} (hT : 0 ≤ lim.1) (hB : 0 ≤ lim.2) {t : Target} (h : InDemand t.x) :
    InDemand (shape lim t).x := by
  obtain ⟨low, high⟩ := h
  unfold shape
  split
  · next ht => exact ⟨by dsimp only; omega, by dsimp only; omega⟩
  · split
    · next ht => exact ⟨by dsimp only; omega, by dsimp only; omega⟩
    · exact ⟨low, high⟩

/-- The ramp leads from the previous demand toward the target and not past it (R98). -/
theorem ramp_inDemand (outcome : Supervision) {dPrev : Int} (hd : InDemand dPrev) (up down : Nat) {t : Target}
    (h : InDemand t.x) : InDemand (ramp outcome dPrev up down t).x := by
  obtain ⟨low, high⟩ := h
  obtain ⟨dlow, dhigh⟩ := hd
  cases outcome with
  | cut => exact ⟨low, high⟩
  | forced => exact ⟨low, high⟩
  | none =>
    unfold ramp InDemand
    dsimp only
    split
    · omega
    · split <;> omega

theorem fourStages_inDemand {p : Part} (h : TablesOk p) (hd : InDemand p.traction.dPrev) :
    InDemand (fourStages p).x := by
  obtain ⟨hT, hB⟩ := limits_nonneg p
  have force : forceBrake p ≤ 1000 := (h.paramRange (i := 4) rfl).2
  exact ramp_inDemand _ hd _ _
    (shape_inDemand hT hB (superviseTarget_inDemand _ force (handleTarget_inDemand h)))

/-- With the parameters in their ranges an evaluation's demand is in its own (R94 to R98). -/
theorem demandOf_inDemand {p : Part} (h : TablesOk p) (hd : InDemand p.traction.dPrev) :
    InDemand (demandOf p).x := by
  unfold demandOf
  split
  · exact ⟨by decide, by decide⟩
  · split
    · exact inDemand_brake (h.paramRange (i := 6) rfl).2
    · split
      · exact ⟨by decide, by decide⟩
      · exact fourStages_inDemand h hd

end Sys2Proof.Machine
end

section
/-! ## The tables and the demand through the operations of the blocks (O58)

`KeepsOrder` carries both invariants through an operation: the demand's needs that of the tables, since an
evaluation reads its limits and brakes from them. Of the blocks' operations only the evaluations and the ends
of an activation and of a drive touch the demand, and only the scrub and the table store touch the tables. -/

namespace Sys2Proof.Machine

set_option Elab.async false

/-- From `p` to `q` the tables in order are kept, and with them the demand's range. -/
structure KeepsOrder (p q : Part) : Prop where
  tables : TablesOk p → TablesOk q
  demand : TablesOk p → DemandOk p → DemandOk q

namespace KeepsOrder

theorem refl (p : Part) : KeepsOrder p p := ⟨id, fun _ => id⟩

theorem trans {p q r : Part} (a : KeepsOrder p q) (b : KeepsOrder q r) : KeepsOrder p r :=
  ⟨b.tables ∘ a.tables, fun ht hd => b.demand (a.tables ht) (a.demand ht hd)⟩

/-- Through either branch of a test. -/
theorem ite {p a b : Part} {c : Prop} [Decidable c] (ha : KeepsOrder p a) (hb : KeepsOrder p b) :
    KeepsOrder p (if c then a else b) := by
  split
  · exact ha
  · exact hb

theorem foldl {α : Type} {f : Part → α → Part} (h : ∀ p x, KeepsOrder p (f p x)) (xs : List α) (p : Part) :
    KeepsOrder p (xs.foldl f p) := by
  induction xs generalizing p with
  | nil => exact .refl p
  | cons x xs ih => exact (h p x).trans (ih _)

end KeepsOrder

/-- `TablesOk` reads the tables and the LINE row alone. -/
theorem TablesOk.congr {p q : Part} (h : TablesOk p) (tables : q.tables = p.tables)
    (line : q.caps.line = p.caps.line) : TablesOk q := by
  unfold TablesOk EnvelopeInOrder lineCap param at h ⊢
  rwa [tables, line]

theorem DemandOk.congr {p q : Part} (h : DemandOk p) (dPrev : q.traction.dPrev = p.traction.dPrev)
    (demand : q.traction.demand = p.traction.demand) : DemandOk q := by
  unfold DemandOk at h ⊢
  rwa [dPrev, demand]

/-- An update of other state. -/
theorem KeepsOrder.update {p q : Part} (tables : q.tables = p.tables := by rfl)
    (line : q.caps.line = p.caps.line := by rfl)
    (dPrev : q.traction.dPrev = p.traction.dPrev := by rfl)
    (demand : q.traction.demand = p.traction.demand := by rfl) : KeepsOrder p q :=
  ⟨fun h => h.congr tables line, fun _ h => h.congr dPrev demand⟩

/-- An update of the table store that keeps it in order. -/
theorem KeepsOrder.of_tables {p q : Part} (tables : TablesOk p → TablesOk q)
    (traction : q.traction = p.traction := by rfl) : KeepsOrder p q :=
  ⟨tables, fun _ h => h.congr (by rw [traction]) (by rw [traction])⟩

/-! ### Shared operations and the sound unit -/

theorem respond_keepsOrder (tag code : Byte) (x : Result) (ws : List Word) (p : Part) :
    KeepsOrder p (respond tag code x ws p) :=
  .update (respond_tables ..) (by rw [respond_caps]) (by rw [respond_traction]) (by rw [respond_traction])

theorem drive_keepsOrder (l : Lane) (cell : List Word) (p : Part) : KeepsOrder p (drive l cell p) := by
  cases l <;> exact .update

theorem countHorn_keepsOrder (wasOn : Bool) (p : Part) : KeepsOrder p (countHorn wasOn p) :=
  .ite (.ite .update (.ite .update .update)) (.refl p)

theorem soundCycle_keepsOrder (p : Part) : KeepsOrder p (soundCycle p) :=
  .trans .update (countHorn_keepsOrder _ _)

theorem endChannelPhase_keepsOrder (ch : Channel) (p : Part) : KeepsOrder p (endChannelPhase ch p) := by
  unfold endChannelPhase
  split
  · exact .update
  · exact .refl p

theorem endChannelStep_keepsOrder (ch : Channel) (p : Part) : KeepsOrder p (endChannelStep ch p) := by
  unfold endChannelStep
  split
  · exact .update
  · exact .refl p

/-! ### Stop unit -/

theorem testDoors_keepsOrder (p : Part) : KeepsOrder p (testDoors p) := .ite .update .update

theorem changeToRunning_keepsOrder (p : Part) : KeepsOrder p (changeToRunning p) := .ite .update .update

theorem tripPhase_keepsOrder (p : Part) : KeepsOrder p (tripPhase p) := by
  unfold tripPhase
  split
  · exact .ite .update (.refl p)
  · exact .ite (changeToRunning_keepsOrder p) (.refl p)

theorem doorStore_keepsOrder (source : Fin 82) (r : SlotRecord) (p : Part) :
    KeepsOrder p (doorStore source r p) := by
  have judged : ∀ q, KeepsOrder q (advanceAssistances (clearDoorOpen (tripPhase q))) := fun q =>
    (tripPhase_keepsOrder q).trans .update
  exact .trans (.ite (.trans .update (judged _)) .update) (testDoors_keepsOrder _)

theorem stopPush_keepsOrder (z : Fin 8) (p : Part) : KeepsOrder p (stopPush z p) :=
  .ite (.ite .update .update) (.ite .update (.refl p))

theorem assistancePush_keepsOrder (z : Fin 8) (p : Part) : KeepsOrder p (assistancePush z p) :=
  (stopPush_keepsOrder z p).trans .update

theorem buttonStore_keepsOrder (r : SlotRecord) (p : Part) : KeepsOrder p (buttonStore r p) :=
  .ite (.ite (.trans .update (assistancePush_keepsOrder _ _))
    (.ite (.trans .update (stopPush_keepsOrder _ _)) .update)) .update

/-! ### Junction unit -/

theorem appendRelease_keepsOrder (x : Release) (p : Part) : KeepsOrder p (appendRelease x p) :=
  .ite .update .update

theorem closeRecord_keepsOrder (pos : Fin 4) (r : JunctionRecord) (p : Part) :
    KeepsOrder p (closeRecord pos r p) := by
  have withdrawn : KeepsOrder p (withdrawRow (.junction pos) p) := .update
  unfold closeRecord
  dsimp only
  split
  · exact (withdrawn.trans (appendRelease_keepsOrder _ _)).trans .update
  · exact .update

theorem openRecord_keepsOrder (pos : Fin 4) (j : Six) (e : RouteEntry) (p : Part) :
    KeepsOrder p (openRecord pos j e p) := .ite .update .update

theorem requestMarker_keepsOrder (j : Six) (e : RouteEntry) (p : Part) :
    KeepsOrder p (requestMarker j e p) := by
  unfold requestMarker
  split
  · exact .refl p
  · split
    · exact .update
    · exact openRecord_keepsOrder _ _ _ p

theorem commitMarker_keepsOrder (j : Six) (p : Part) : KeepsOrder p (commitMarker j p) := by
  unfold commitMarker
  split
  · exact .update
  · split
    · exact .refl p
    · split <;> exact .update

theorem clearMarker_keepsOrder (j : Six) (p : Part) : KeepsOrder p (clearMarker j p) := by
  unfold clearMarker
  split
  · exact .refl p
  · split
    · exact .refl p
    · exact closeRecord_keepsOrder _ _ p

theorem newMarker_keepsOrder (id : Nat) (p : Part) : KeepsOrder p (newMarker id p) := by
  unfold newMarker
  split
  · exact .update
  · refine .ite ?_ .update
    split
    · exact requestMarker_keepsOrder _ _ p
    · exact commitMarker_keepsOrder _ p
    · exact clearMarker_keepsOrder _ p

theorem markerStore_keepsOrder (r : SlotRecord) (p : Part) : KeepsOrder p (markerStore r p) := by
  unfold markerStore
  dsimp only
  split
  · exact .update
  · exact .ite .update (.ite (.trans .update (newMarker_keepsOrder _ _))
      (.trans .update (newMarker_keepsOrder _ _)))

theorem selectFor_keepsOrder (p : Part) (pos : Fin 4) : KeepsOrder p (selectFor p pos) := by
  unfold selectFor
  split
  · exact .refl p
  · refine .ite (.refl p) ?_
    split
    · exact .update
    · exact .update
    all_goals exact .ite .update (.refl p)

theorem select_keepsOrder (x : BitVec 4) (p : Part) : KeepsOrder p (select x p) :=
  .ite .update (.trans .update (.foldl selectFor_keepsOrder _ _))

theorem reportAt_keepsOrder (x : PointReport) (p : Part) (pos : Fin 4) :
    KeepsOrder p (reportAt x p pos) := by
  unfold reportAt
  split
  · exact .refl p
  · dsimp only
    split
    · exact .refl p
    · refine .ite ?_ (.refl p)
      split
      · exact .ite .update .update
      · exact .ite .update (.refl p)
      · exact .ite .update (.refl p)
      · exact .refl p

theorem pointStore_keepsOrder (r : SlotRecord) (p : Part) : KeepsOrder p (pointStore r p) :=
  .ite (.foldl (reportAt_keepsOrder _) _ p) (.refl p)

theorem timeOut_keepsOrder (pos : Fin 4) (p : Part) : KeepsOrder p (timeOut pos p) := by
  unfold timeOut
  split
  · exact .update
  · exact .refl p

theorem countRequest_keepsOrder (p : Part) (pos : Fin 4) : KeepsOrder p (countRequest p pos) := by
  unfold countRequest
  split
  · exact .ite (.ite (.trans .update (timeOut_keepsOrder _ _)) .update) (.refl p)
  · exact .refl p

theorem addDistance_keepsOrder (delta : Nat) (p : Part) (pos : Fin 4) :
    KeepsOrder p (addDistance delta p pos) := by
  unfold addDistance
  split
  · exact .ite (.ite (.trans .update (closeRecord_keepsOrder _ _ _)) .update) (.refl p)
  · exact .refl p

theorem takeDistance_keepsOrder (delta : Nat) (p : Part) : KeepsOrder p (takeDistance delta p) :=
  .ite (.refl p) (.foldl (addDistance_keepsOrder delta) _ p)

theorem junctionAck_keepsOrder (p : Part) : KeepsOrder p (junctionAck p) := .ite .update (.refl p)

theorem junctionCycle_keepsOrder (p : Part) : KeepsOrder p (junctionCycle p) := by
  have acknowledged : KeepsOrder p (sampleJunctionAck p) :=
    .ite (.trans .update (junctionAck_keepsOrder _)) .update
  have selected : KeepsOrder p (testSelection (sampleJunctionAck p)) :=
    acknowledged.trans (.ite (select_keepsOrder 0 _) (.refl _))
  exact selected.trans (.foldl countRequest_keepsOrder _ _)

theorem discard_keepsOrder (p : Part) (pos : Fin 4) : KeepsOrder p (discard p pos) := by
  unfold discard
  split
  · exact .refl p
  · exact (KeepsOrder.ite (appendRelease_keepsOrder _ p) (.refl p)).trans .update

theorem junctionTeardown_keepsOrder (p : Part) : KeepsOrder p (junctionTeardown p) := by
  have discarded := KeepsOrder.foldl discard_keepsOrder positions p
  unfold junctionTeardown
  generalize positions.foldl discard p = q at discarded
  exact discarded.trans .update

/-! ### Traction unit -/

theorem speedStore_keepsOrder (r : SlotRecord) (p : Part) : KeepsOrder p (speedStore r p) :=
  .trans .update (takeDistance_keepsOrder _ _)

theorem speedGoesStale_keepsOrder (p : Part) : KeepsOrder p (speedGoesStale p) :=
  .trans .update (.ite .update (.refl _))

theorem updateLock_keepsOrder (p : Part) : KeepsOrder p (updateLock p) :=
  .ite (.ite (.refl p) (speedGoesStale_keepsOrder p)) (.ite (.ite .update .update) .update)

theorem speedInput_keepsOrder (p : Part) : KeepsOrder p (speedInput p) :=
  .ite (.refl p) (.trans (.ite .update (.refl p)) (updateLock_keepsOrder _))

theorem tractionInputs_keepsOrder (cs : CycleStart) (p : Part) : KeepsOrder p (tractionInputs cs p) :=
  .ite .update (.trans .update (speedInput_keepsOrder _))

theorem judgeEpisode_keepsOrder (p : Part) : KeepsOrder p (judgeEpisode p) :=
  .ite (.ite .update (.ite .update (.refl p))) (.refl p)

/-- The demand of an evaluation is the one that follows from the tables in order (R100). -/
theorem finish_keepsOrder (p : Part) : KeepsOrder p (finish p) := by
  refine ⟨fun h => h.congr rfl rfl, fun ht hd => (demandOk_iff _).mpr ?_⟩
  have range := demandOf_inDemand ht ((demandOk_iff p).mp hd).1
  exact ⟨range, range⟩

theorem evaluate_keepsOrder (p : Part) : KeepsOrder p (evaluate p) := by
  have judged : KeepsOrder p (judgeEnvelope (judgeInputs p)) := .trans .update (.ite .update (.refl _))
  exact (judged.trans (judgeEpisode_keepsOrder _)).trans (finish_keepsOrder _)

theorem tractionActivates_keepsOrder (p : Part) : KeepsOrder p (tractionActivates p) :=
  .trans (.ite (.refl p) .update) (evaluate_keepsOrder _)

/-- With the end of an activation or of a drive the previous demand is -1000 (R102). -/
theorem KeepsOrder.full_brake {p q : Part} (tables : q.tables = p.tables := by rfl)
    (line : q.caps.line = p.caps.line := by rfl) (dPrev : q.traction.dPrev = -1000 := by rfl)
    (demand : q.traction.demand = p.traction.demand := by rfl) : KeepsOrder p q := by
  refine ⟨fun h => h.congr tables line, fun _ h => (demandOk_iff q).mpr ⟨?_, ?_⟩⟩
  · rw [dPrev]
    exact ⟨by decide, by decide⟩
  · rw [demand]
    exact ((demandOk_iff p).mp h).2

theorem tractionResumes_keepsOrder (p : Part) : KeepsOrder p (tractionResumes p) := by
  unfold tractionResumes
  split
  · exact .refl p
  · exact .update

/-! ### Cab authority -/

theorem activationEnds_keepsOrder (p : Part) : KeepsOrder p (activationEnds p) := .full_brake

theorem activationFails_keepsOrder (x : FaultCause) (st : Stage) (t : Option TableId) (p : Part) :
    KeepsOrder p (activationFails x st t p) := .full_brake

theorem activationYields_keepsOrder (p : Part) : KeepsOrder p (activationYields p) := .full_brake

theorem beginActivation_keepsOrder (n : Nat) (p : Part) : KeepsOrder p (beginActivation n p) :=
  .trans .update (tractionActivates_keepsOrder _)

theorem attempt_keepsOrder (p : Part) : KeepsOrder p (attempt p) :=
  .ite (beginActivation_keepsOrder _ p) .update

theorem attemptIfDue_keepsOrder (p : Part) : KeepsOrder p (attemptIfDue p) :=
  .ite (attempt_keepsOrder p) (.refl p)

theorem leaveStabled_keepsOrder (p : Part) : KeepsOrder p (leaveStabled p) :=
  .ite (.ite (beginActivation_keepsOrder _ p) .update) .update

theorem leaveStabledIfDue_keepsOrder (p : Part) : KeepsOrder p (leaveStabledIfDue p) :=
  .ite (leaveStabled_keepsOrder p) (.refl p)

theorem teardown_keepsOrder (p : Part) : KeepsOrder p (teardown p) := by
  have released : ∀ q, KeepsOrder q (tractionTeardown (soundOff (stopTeardown q))) := fun _ => .full_brake
  exact .trans .update ((junctionTeardown_keepsOrder _).trans (released _))

theorem takeExit_keepsOrder (p : Part) : KeepsOrder p (takeExit p) := by
  unfold takeExit
  split
  · exact .update
  · exact teardown_keepsOrder p
  all_goals exact .refl p

theorem presentEvaluation_keepsOrder (p : Part) : KeepsOrder p (presentEvaluation p) :=
  .ite (takeExit_keepsOrder p) (.refl p)

theorem keyLeavesDrive_keepsOrder (x : PendingExit) (p : Part) : KeepsOrder p (keyLeavesDrive x p) :=
  .ite (.ite (.trans .update (takeExit_keepsOrder _)) .update) .update

theorem keyRecognised_keepsOrder (k : Key) (p : Part) : KeepsOrder p (keyRecognised k p) := by
  unfold keyRecognised
  split
  · exact .trans .update (attemptIfDue_keepsOrder _)
  · exact .ite (.refl p) (activationEnds_keepsOrder p)
  · exact .ite (.ite (.refl p) .update) (keyLeavesDrive_keepsOrder _ p)
  · split
    · exact .trans .update (tractionResumes_keepsOrder _)
    · exact teardown_keepsOrder p
    · exact .refl p
  · exact .ite (.trans .update (leaveStabledIfDue_keepsOrder _)) (.ite .update (.refl p))

theorem deskCycle_keepsOrder (p : Part) : KeepsOrder p (deskCycle p) :=
  .ite (.trans .update (keyRecognised_keepsOrder _ _)) .update

theorem conflictInActive_keepsOrder (v : CabState) (p : Part) : KeepsOrder p (conflictInActive v p) :=
  .ite (.refl p) .update

theorem viewChanged_keepsOrder (v : CabState) (p : Part) : KeepsOrder p (viewChanged v p) := by
  unfold viewChanged
  split
  · split
    · exact activationYields_keepsOrder p
    · exact activationYields_keepsOrder p
    · exact .ite (activationYields_keepsOrder p) (.refl p)
    · exact .refl p
    · exact .refl p
  · exact conflictInActive_keepsOrder v p
  · exact .ite (.refl p) .update
  · exact .refl p
  · exact .refl p

theorem takeView_keepsOrder (v : CabState) (p : Part) : KeepsOrder p (takeView v p) :=
  .ite (.refl p) (.trans .update (viewChanged_keepsOrder _ _))

theorem enterActive_keepsOrder (p : Part) : KeepsOrder p (enterActive p) := by
  unfold enterActive
  refine .trans ?_ (conflictInActive_keepsOrder _ _)
  dsimp only
  refine .trans ?_ (q := if departureWarning p = true then _ else _) .update
  exact .ite .update .update

theorem checkTable_keepsOrder (t : TableId) (p : Part) : KeepsOrder p (checkTable t p) := by
  unfold checkTable
  refine .ite (activationFails_keepsOrder _ _ _ p) (.ite (activationFails_keepsOrder _ _ _ p) ?_)
  split <;> exact .update

theorem stageCycle_keepsOrder (p : Part) : KeepsOrder p (stageCycle p) := by
  unfold stageCycle
  split
  · exact .refl p
  · exact .ite .update .update
  · split
    · exact checkTable_keepsOrder _ p
    · exact .refl p
  · exact .ite (.trans .update (activationFails_keepsOrder _ _ _ _)) .update
  · exact .ite (.ite (.trans .update (enterActive_keepsOrder _)) .update) .update

theorem tableChanged_keepsOrder (t : TableId) (p : Part) : KeepsOrder p (tableChanged t p) :=
  .ite (activationFails_keepsOrder _ _ _ p) (.refl p)

theorem presentLoss_keepsOrder (x : Option LossChange) (p : Part) : KeepsOrder p (presentLoss x p) := by
  unfold presentLoss
  split
  · exact .refl p
  · exact .ite (activationFails_keepsOrder _ _ _ p) (.refl p)
  · exact (attemptIfDue_keepsOrder p).trans (leaveStabledIfDue_keepsOrder _)

end Sys2Proof.Machine
end

section
/-! ## The table store in order (R91, R168 to R179): O58 -/

namespace Sys2Proof.Machine

set_option Elab.async false

/-! ### Updates that leave the tables' words -/

/-- The image of every transfer that waits is in range (R174, R175). -/
def StagingOk (ts : TableStore) : Prop :=
  match ts.staging with
  | .free => True
  | .busy back => WaitsOk back ts.back
  | .pending back front => WaitsOk back ts.back ∧ WaitsOk front ts.front

theorem TablesOk.staging {p : Part} (h : TablesOk p) : StagingOk p.tables := by
  obtain ⟨-, -, -, -, -, -, -, -, staging⟩ := h
  exact staging

theorem envelopeInOrder_congr_words {p q : Part} (param : p.tables.param.words = q.tables.param.words)
    (envelope : p.tables.envelope.words = q.tables.envelope.words) : EnvelopeInOrder p ↔ EnvelopeInOrder q := by
  simp only [EnvelopeInOrder, Machine.param, param, envelope]

/-- The tables' words and sums, the LINE row and the validity mark stand; the staging buffer and the held
values are in order. -/
theorem TablesOk.of_words {p q : Part} (h : TablesOk p)
    (words : ∀ t, (tableAt q.tables t).words = (tableAt p.tables t).words
      ∧ (tableAt q.tables t).ref = (tableAt p.tables t).ref)
    (held : q.tables.held.all (between 0 1000) = true) (front : q.tables.front.length = 24)
    (back : q.tables.back.length = 24) (line : q.caps.line = p.caps.line)
    (valid : q.tables.envelopeValid = p.tables.envelopeValid) (staging : StagingOk q.tables) : TablesOk q := by
  obtain ⟨sums, range, envelope, -, -, -, lineCap_p, valid_p, -⟩ := h
  have param : q.tables.param.words = p.tables.param.words := (words .param).1
  have breakpoints : q.tables.envelope.words = p.tables.envelope.words := (words .envelope).1
  refine ⟨fun t => ?_, ?_, ?_, held, front, back, ?_, ?_, staging⟩
  · obtain ⟨sameWords, sameRef⟩ := words t
    rw [sumMatches, sameWords, sameRef]
    exact sums t
  · rwa [param]
  · rwa [breakpoints]
  · rw [line, lineCap_p, lineCap, lineCap, Machine.param, Machine.param, param]
  · rw [valid, valid_p]
    exact envelopeInOrder_congr_words param.symm breakpoints.symm

/-- An update of locks and marks, of DEPOT, of the lock sequence or of the pointer. -/
theorem TablesOk.of_marks {p q : Part} (h : TablesOk p)
    (words : ∀ t, (tableAt q.tables t).words = (tableAt p.tables t).words
      ∧ (tableAt q.tables t).ref = (tableAt p.tables t).ref)
    (held : q.tables.held = p.tables.held := by rfl) (front : q.tables.front = p.tables.front := by rfl)
    (back : q.tables.back = p.tables.back := by rfl)
    (staging : q.tables.staging = p.tables.staging := by rfl)
    (valid : q.tables.envelopeValid = p.tables.envelopeValid := by rfl)
    (line : q.caps.line = p.caps.line := by rfl) : TablesOk q := by
  obtain ⟨-, -, -, held_p, front_p, back_p, -⟩ := id h
  refine h.of_words words (by rwa [held]) (by rwa [front]) (by rwa [back]) line valid ?_
  unfold StagingOk
  rw [staging, back, front]
  exact h.staging

theorem disarm_keepsOrder (p : Part) : KeepsOrder p (disarm p) :=
  .of_tables fun h => h.of_marks fun t => by cases t <;> exact ⟨rfl, rfl⟩

theorem sampleDepot_keepsOrder (p : Part) : KeepsOrder p (sampleDepot p) :=
  .of_tables fun h => h.of_marks fun t => by cases t <;> exact ⟨rfl, rfl⟩

theorem lockSetupCommand_keepsOrder (tag : Byte) (p : Part) : KeepsOrder p (lockSetupCommand tag p) := by
  have armed : KeepsOrder p { p with tables := { p.tables with armed := true } } :=
    .of_tables fun h => h.of_marks fun t => by cases t <;> exact ⟨rfl, rfl⟩
  exact armed.trans (respond_keepsOrder _ _ _ _ _)

/-- A table replaced by one of the same words and sum. -/
theorem putTable_keepsOrder (t : TableId) (x : Table) (p : Part) (words : x.words = (tableAt p.tables t).words)
    (ref : x.ref = (tableAt p.tables t).ref) : KeepsOrder p { p with tables := putTable p.tables t x } := by
  obtain ⟨staging, front, back, -, -, -, -, held⟩ := putTable_sameBuffer p.tables t x
  refine .of_tables fun h => h.of_marks (fun u => ?_) held front back staging (by cases t <;> rfl)
  by_cases e : t = u
  · subst e
    simp [words, ref]
  · rw [show tableAt (putTable p.tables t x) u = _ from tableAt_putTable_ne e _ _]
    exact ⟨rfl, rfl⟩

theorem withLock_keepsOrder (t : TableId) (x : LockState) (p : Part) : KeepsOrder p (withLock t x p) :=
  putTable_keepsOrder t _ p rfl rfl

/-- A scrub marks a table, and changes no word of it (R64, R170). -/
theorem scrubTable_keepsOrder (t : TableId) (p : Part) : KeepsOrder p (scrubTable t p) := by
  unfold scrubTable
  dsimp only
  cases sumMatches (tableAt p.tables t) with
  | true => exact .update
  | false =>
    have marked := putTable_keepsOrder t { tableAt p.tables t with faulty := true } p rfl rfl
    exact marked.trans .update

theorem scrubCycle_keepsOrder (p : Part) : KeepsOrder p (scrubCycle p) := by
  unfold scrubCycle
  refine .ite ?_ (.refl p)
  dsimp only
  split
  · exact .trans .update ((scrubTable_keepsOrder _ _).trans (leaveStabledIfDue_keepsOrder _))
  · exact .ite (.trans .update (scrubTable_keepsOrder _ _)) .update

/-- The mark recomputed is that of the envelope (R91). -/
theorem markEnvelope_keepsOrder (p : Part) : KeepsOrder p (markEnvelope p) := by
  refine .of_tables fun ⟨sums, range, envelope, held, front, back, line, _, staging⟩ => ?_
  refine ⟨fun t => ?_, range, envelope, held, front, back, line, markEnvelope_iff p, staging⟩
  rw [show tableAt (markEnvelope p).tables t = tableAt p.tables t by cases t <;> rfl]
  exact sums t

/-! ### A committed change (R168) -/

/-- The words after a change are those of the table, with their sum (R168, R170). -/
theorem committed_inOrder {t : TableId} {i : Nat} {image : List Word} (hi : ImageOk t i image) {x : Table}
    (h : x.words.length = tableSize t) :
    (committed t i image x).words.length = tableSize t ∧ sumMatches (committed t i image x) = true := by
  refine ⟨(overwrite_length _ _ _ ?_).trans h, beq_self_eq_true _⟩
  rw [hi.length, h]
  exact entry_fits hi.index

section
variable {t : TableId} {i : Nat} {image : List Word} {p : Part} (h : TablesOk p) (hi : ImageOk t i image)
include h hi

theorem commit_param_inRange : paramInRange (commit t i image p).tables.param.words = true := by
  obtain ⟨sums, range, -⟩ := h
  by_cases ht : t = .param
  · subst ht
    have zero : i = 0 := Nat.lt_one_iff.mp hi.index
    have written : (commit .param i image p).tables.param.words = image := by
      rw [show (commit .param i image p).tables.param = _ from tableAt_commit_self .param i image p, zero]
      exact overwrite_all (hi.length.trans (sums .param).1.symm)
    rw [written]
    exact hi.param rfl
  · rwa [show (commit t i image p).tables.param = _ from tableAt_commit_ne (u := .param) ht i image p]

theorem commit_envelope_inRange :
    (commit t i image p).tables.envelope.words.all (between 0 1000) = true := by
  obtain ⟨-, -, range, -⟩ := h
  by_cases ht : t = .envelope
  · subst ht
    rw [show (commit .envelope i image p).tables.envelope = _ from tableAt_commit_self .envelope i image p]
    refine List.all_eq_true.mpr fun w hw => ?_
    rcases mem_overwrite hw with hw | hw
    · exact List.all_eq_true.mp range w hw
    · exact List.all_eq_true.mp (hi.envelope rfl) w hw
  · rwa [show (commit t i image p).tables.envelope = _ from tableAt_commit_ne (u := .envelope) ht i image p]

omit hi in
/-- A change to PARAM sets the LINE row, and no other change touches either (R73). -/
theorem commit_line : (commit t i image p).caps.line = lineCap (commit t i image p) := by
  by_cases ht : t = .param
  · rw [commit_param_caps ht]
  · have line : (tableChanged t p).caps.line = p.caps.line := by
      rw [tableChanged_caps]
      split <;> rfl
    rw [commit_caps ht, line, h.line, lineCap, lineCap, Machine.param, Machine.param,
      show (commit t i image p).tables.param = _ from tableAt_commit_ne (u := .param) ht i image p]
    rfl

omit hi in
/-- A change to PARAM or ENVELOPE recomputes the mark, and no other concerns the envelope (R91). -/
theorem commit_valid :
    (commit t i image p).tables.envelopeValid = true ↔ EnvelopeInOrder (commit t i image p) := by
  by_cases ht : t = .param ∨ t = .envelope
  · exact commit_envelopeValid ht i image p
  · obtain ⟨hp, he⟩ := not_or.mp ht
    obtain ⟨-, -, -, -, -, -, -, valid, -⟩ := h
    rw [commit_envelopeValid_ne hp he, valid]
    exact envelopeInOrder_congr (tableAt_commit_ne (u := .param) hp i image p).symm
      (tableAt_commit_ne (u := .envelope) he i image p).symm

/-- A committed change keeps the tables in order. -/
theorem commit_tablesOk : TablesOk (commit t i image p) := by
  obtain ⟨sums, -, -, held, front, back, -⟩ := id h
  obtain ⟨sameStaging, sameFront, sameBack, -, -, -, -, sameHeld⟩ := commit_sameBuffer t i image p
  refine ⟨fun u => ?_, commit_param_inRange h hi, commit_envelope_inRange h hi, by rwa [sameHeld],
    by rwa [sameFront], by rwa [sameBack], commit_line h, commit_valid h, ?_⟩
  · by_cases e : t = u
    · subst e
      rw [tableAt_commit_self]
      exact committed_inOrder hi (sums t).1
    · rw [tableAt_commit_ne e]
      exact sums u
  · rw [sameStaging, sameBack, sameFront]
    exact h.staging

end

theorem commit_keepsOrder {t : TableId} {i : Nat} {image : List Word} {p : Part}
    (hi : TablesOk p → ImageOk t i image) : KeepsOrder p (commit t i image p) := by
  refine ⟨fun h => commit_tablesOk h (hi h), fun ht hd => ?_⟩
  obtain ⟨-, traction, -⟩ := commit_activation t i image p
  exact ((tableChanged_keepsOrder t p).demand ht hd).congr (by rw [traction]) (by rw [traction])

/-! ### The staging buffer (R176, R177) -/

/-- The transfer in the back waits with its image there. -/
theorem StagingOk.outstanding {ts : TableStore} {x : Transfer} (h : StagingOk ts)
    (hx : outstanding ts = some x) : WaitsOk x ts.back := by
  unfold StagingOk at h
  unfold Machine.outstanding at hx
  cases hs : ts.staging with
  | free => simp [hs] at hx
  | busy back =>
    simp only [hs, Option.some.injEq] at h hx
    exact hx ▸ h
  | pending back front =>
    simp only [hs, Option.some.injEq] at h hx
    exact hx ▸ h.1

/-- The staging state moves on, with the image of the next transfer in the back (R177). -/
theorem advanceStaging_keepsOrder (p : Part) :
    KeepsOrder p { p with tables := advanceStaging p.tables } := by
  have words : ∀ t, (tableAt (advanceStaging p.tables) t).words = (tableAt p.tables t).words
      ∧ (tableAt (advanceStaging p.tables) t).ref = (tableAt p.tables t).ref := fun t => by
    rw [tableAt_advanceStaging]
    exact ⟨rfl, rfl⟩
  refine .of_tables fun h => ?_
  obtain ⟨-, -, -, held, front, back, -⟩ := id h
  cases hs : p.tables.staging with
  | free =>
    have same : advanceStaging p.tables = p.tables := by simp only [advanceStaging, hs]
    exact h.congr same rfl
  | busy x =>
    have free := advanceStaging_busy hs
    refine h.of_words words ?_ ?_ ?_ rfl (advanceStaging_envelopeValid _) ?_ <;> rw [free]
    · exact held
    · exact front
    · exact back
    · trivial
  | pending x next =>
    have busy := advanceStaging_pending hs
    have waits : StagingOk p.tables := h.staging
    simp only [StagingOk, hs] at waits
    refine h.of_words words ?_ ?_ ?_ rfl (advanceStaging_envelopeValid _) ?_ <;> rw [busy]
    · exact held
    · exact back
    · exact front
    · exact waits.2

theorem completeOne_keepsOrder {x : Transfer} {p : Part} (hx : outstanding p.tables = some x) :
    KeepsOrder p (completeOne x p) := by
  unfold completeOne
  split
  · exact respond_keepsOrder _ _ _ _ p
  · refine .trans (commit_keepsOrder fun h => ?_) (respond_keepsOrder _ _ _ _ _)
    obtain ⟨-, -, -, -, -, back, -⟩ := id h
    exact (h.staging.outstanding hx).imageOk back

theorem completeTransfer_keepsOrder (p : Part) : KeepsOrder p (completeTransfer p) := by
  unfold completeTransfer
  split
  · exact .refl p
  · next hx => exact (completeOne_keepsOrder hx).trans (advanceStaging_keepsOrder _)

/-- WRITE_STAGE writes the front while no transfer waits there (R176). -/
theorem writeStage_keepsOrder (tag : Byte) (offset count : Nat) (ws : List Word) (p : Part) :
    KeepsOrder p (writeStage tag offset count ws p) := by
  have written (hs : ∀ x y, p.tables.staging ≠ .pending x y) (fits : offset + count ≤ 24) :
      KeepsOrder p { p with tables := { p.tables with
        front := overwrite p.tables.front offset (padTo count ws) } } := by
    refine .of_tables fun h => ?_
    obtain ⟨-, -, -, held, front, back, -⟩ := id h
    refine h.of_words (fun t => by cases t <;> exact ⟨rfl, rfl⟩) held ?_ back rfl rfl ?_
    · exact (overwrite_length _ _ _ (by rw [padTo_length, front]; exact fits)).trans front
    · have waits := h.staging
      unfold StagingOk at waits ⊢
      cases hst : p.tables.staging with
      | free => trivial
      | busy x => simpa only [hst] using waits
      | pending x y => exact absurd hst (hs x y)
  unfold writeStage
  split
  · exact respond_keepsOrder _ _ _ _ p
  all_goals
    next hs =>
    split
    · exact respond_keepsOrder _ _ _ _ p
    · exact (written (by simp [hs]) (by omega)).trans (respond_keepsOrder _ _ _ _ _)

/-- A transfer whose image has passed the gates waits with it (R176). -/
theorem stageTransfer_keepsOrder {x : Transfer} {p : Part} (hx : WaitsOk x p.tables.front) :
    KeepsOrder p (stageTransfer x p) := by
  have words : ∀ (t : TableId) (ts : TableStore), (∀ t, tableAt ts t = tableAt p.tables t) →
      (tableAt ts t).words = (tableAt p.tables t).words ∧ (tableAt ts t).ref = (tableAt p.tables t).ref :=
    fun t ts same => by rw [same]; exact ⟨rfl, rfl⟩
  unfold stageTransfer
  cases hs : p.tables.staging with
  | free =>
    refine .of_tables fun h => ?_
    obtain ⟨-, -, -, held, front, back, -⟩ := id h
    exact h.of_words (fun t => words t _ fun u => by cases u <;> rfl) held back front rfl rfl hx
  | busy y =>
    refine .of_tables fun h => ?_
    obtain ⟨-, -, -, held, front, back, -⟩ := id h
    have waits := h.staging
    simp only [StagingOk, hs] at waits
    exact h.of_words (fun t => words t _ fun u => by cases u <;> rfl) held front back rfl rfl ⟨waits, hx⟩
  | pending y z => exact respond_keepsOrder _ _ _ _ p

/-- ENVELOPE is not written by a TRANSFER (R176). -/
theorem stagedTable_ne_envelope {table : Word} {t : TableId} (h : stagedTable table = some t) :
    t ≠ .envelope := by
  rintro rfl
  unfold stagedTable at h
  split at h
  · cases h
  · next hne => exact hne h

theorem transferGate_none {t : TableId} {i : Nat} {p : Part} (h : transferGate t i p = none) :
    i < entryCount t ∧ imageInRange t i (p.tables.front.take (entrySize t i)) = true := by
  unfold transferGate at h
  split at h
  · cases h
  · next index =>
    refine ⟨Nat.not_le.mp index, ?_⟩
    split at h
    · cases h
    · by_contra range
      rw [if_neg range] at h
      cases h

theorem transfer_keepsOrder (tag : Byte) (table index : Word) (p : Part) :
    KeepsOrder p (transfer tag table index p) := by
  unfold transfer
  split
  · exact respond_keepsOrder _ _ _ _ p
  · next t ht =>
    split
    · exact respond_keepsOrder _ _ _ _ p
    · next passed =>
      obtain ⟨inside, range⟩ := transferGate_none passed
      exact stageTransfer_keepsOrder ⟨stagedTable_ne_envelope ht, inside, range⟩

/-! ### The envelope pointer (R178, R179) -/

theorem movePointer_keepsOrder (k : Fin 16) (field : EnvelopeField) {values : List Word} {p : Part}
    (hv : TablesOk p → values.all (between 0 1000) = true) : KeepsOrder p (movePointer k field values p) := by
  refine .of_tables fun h => ?_
  obtain ⟨-, -, -, -, front, back, -⟩ := id h
  exact h.of_words (fun t => by cases t <;> exact ⟨rfl, rfl⟩) (hv h) front back rfl rfl h.staging

theorem TablesOk.held {p : Part} (h : TablesOk p) (i : Nat) : between 0 1000 (wordAt p.tables.held i) = true := by
  obtain ⟨-, -, -, held, -⟩ := h
  exact wordAt_between held i

/-- A B up to 1000 commits a breakpoint of values up to 1000. -/
theorem tripleCommitted_keepsOrder {v : Word} (hv : between 0 1000 v = true) (p : Part) :
    KeepsOrder p (tripleCommitted v p) := by
  refine commit_keepsOrder fun h => ⟨p.tables.pointer.isLt, rfl, nofun, fun _ => ?_⟩
  simp [tripleImage, hv, h.held 0, h.held 1]

/-- A value up to 1000 is held, or completes a triple of values up to 1000 (R179). -/
theorem takeValue_keepsOrder {v : Word} (hv : between 0 1000 v = true) (p : Part) :
    KeepsOrder p (takeValue v p) := by
  cases hf : p.tables.field with
  | s =>
    rw [takeValue_s v hf]
    exact movePointer_keepsOrder _ _ fun _ => by simp [hv]
  | t =>
    rw [takeValue_t v hf]
    exact movePointer_keepsOrder _ _ fun h => by simp [hv, h.held 0]
  | b =>
    rw [takeValue_b v hf]
    exact (tripleCommitted_keepsOrder hv p).trans (movePointer_keepsOrder _ _ fun _ => rfl)

theorem takeValues_keepsOrder {vs : List Word} (hvs : vs.all (between 0 1000) = true) (p : Part) :
    KeepsOrder p (takeValues vs p) := by
  unfold takeValues
  induction vs generalizing p with
  | nil => exact .refl p
  | cons v vs ih =>
    rw [List.all_cons, Bool.and_eq_true] at hvs
    exact (takeValue_keepsOrder hvs.1 p).trans (ih hvs.2 _)

theorem envelopePointer_keepsOrder (tag : Byte) (breakpoint : Word) (p : Part) :
    KeepsOrder p (envelopePointer tag breakpoint p) := by
  unfold envelopePointer
  split
  · exact (movePointer_keepsOrder _ _ fun _ => rfl).trans (respond_keepsOrder _ _ _ _ _)
  · exact respond_keepsOrder _ _ _ _ p

theorem envelopeData_keepsOrder (tag : Byte) (count : Nat) (values : List Word) (p : Part) :
    KeepsOrder p (envelopeData tag count values p) := by
  unfold envelopeData
  split
  · exact respond_keepsOrder _ _ _ _ p
  · dsimp only
    split
    · exact respond_keepsOrder _ _ _ _ p
    · next accepted =>
      have range : (padTo count values).all (between 0 1000) = true := by
        rw [not_or, not_or, Bool.not_eq_false] at accepted
        exact accepted.2.2
      exact (takeValues_keepsOrder range p).trans (respond_keepsOrder _ _ _ _ _)

/-! ### RESTART (R182, R189) -/

/-- The table store at a RESTART keeps the words, and LINE takes its line_cap (R77, R182). -/
theorem restart_keepsOrder (p : Part) : KeepsOrder p (restart p) := by
  unfold restart
  refine .trans ?_ (markEnvelope_keepsOrder _)
  refine ⟨fun h => ?_, fun _ _ => demandOk_reset.congr rfl rfl⟩
  refine h.of_words (fun t => ?_) rfl rfl rfl h.line.symm rfl trivial
  rw [show tableAt (restartedTables p.tables) t = _ from tableAt_restartedTables _ t]
  exact ⟨rfl, rfl⟩

theorem restartCommand_keepsOrder (tag : Byte) (lines : Lines) (p : Part) :
    KeepsOrder p (restartCommand tag lines p) := by
  have restarted : KeepsOrder p (respond tag 16 .ok [] (restart (withLines lines p))) :=
    .trans (.trans .update (restart_keepsOrder _)) (respond_keepsOrder _ _ _ _ _)
  unfold restartCommand
  split
  · exact restarted
  · exact restarted
  all_goals exact respond_keepsOrder _ _ _ _ p

end Sys2Proof.Machine
end

section
/-! ## The tables and the demand through every command (R73, R91, R100, R168, R170): O58 -/

namespace Sys2Proof.Machine

set_option Elab.async false

/-! ### The management commands (chapter 10) -/

theorem accept_keepsOrder (tag code : Byte) {take : Part → Part} (h : ∀ p, KeepsOrder p (take p)) (p : Part) :
    KeepsOrder p (accept tag code take p) := by
  rcases accept_cases tag code take p with ⟨-, e⟩ | ⟨-, -, e⟩ | ⟨-, -, e⟩ <;> rw [e]
  · exact .refl p
  · exact h p
  · exact (disarm_keepsOrder p).trans (.trans .update (respond_keepsOrder _ _ _ _ _))

theorem acceptLock_keepsOrder (tag code : Byte) {take : Part → Part} (h : ∀ p, KeepsOrder p (take p))
    (p : Part) : KeepsOrder p (acceptLock tag code take p) := by
  rcases acceptLock_cases tag code take p with ⟨-, e⟩ | ⟨-, -, e⟩ | ⟨-, -, e⟩ <;> rw [e]
  · exact .refl p
  · exact (disarm_keepsOrder p).trans (h _)
  · exact .trans .update (respond_keepsOrder _ _ _ _ _)

theorem statusCommand_keepsOrder (tag : Byte) (page : Word) (p : Part) :
    KeepsOrder p (statusCommand tag page p) := by
  unfold statusCommand
  split <;> exact respond_keepsOrder _ _ _ _ p

theorem clearStatusCommand_keepsOrder (tag : Byte) (p : Part) : KeepsOrder p (clearStatusCommand tag p) :=
  .trans .update (respond_keepsOrder _ _ _ _ _)

theorem readEntryCommand_keepsOrder (tag : Byte) (table index offset : Word) (p : Part) :
    KeepsOrder p (readEntryCommand tag table index offset p) := by
  unfold readEntryCommand
  split
  · exact respond_keepsOrder _ _ _ _ p
  · exact .ite (respond_keepsOrder _ _ _ _ p) (respond_keepsOrder _ _ _ _ p)

theorem lockTable_keepsOrder (t : TableId) (p : Part) : KeepsOrder p (lockTable t p).1 := by
  unfold lockTable
  split
  · exact withLock_keepsOrder t _ p
  · exact withLock_keepsOrder t _ p
  · exact .refl p

theorem unlockTable_keepsOrder (t : TableId) (p : Part) : KeepsOrder p (unlockTable t p).1 := by
  unfold unlockTable
  split
  · exact .refl p
  · split
    · exact .refl p
    · exact withLock_keepsOrder t _ p
  · split
    · exact .refl p
    · split
      · exact .refl p
      · exact withLock_keepsOrder t _ p

theorem lockCommand_keepsOrder {act : TableId → Part → Part × Result} (h : ∀ t p, KeepsOrder p (act t p).1)
    (tag code : Byte) (table : Word) (p : Part) : KeepsOrder p (lockCommand act tag code table p) := by
  unfold lockCommand
  split
  · exact respond_keepsOrder _ _ _ _ p
  · exact (h _ p).trans (respond_keepsOrder _ _ _ _ _)

theorem setRestrictionCommand_keepsOrder (tag : Byte) (action value : Word) (p : Part) :
    KeepsOrder p (setRestrictionCommand tag action value p) :=
  .ite (.trans .update (respond_keepsOrder _ _ _ _ _))
    (.ite (.trans .update (respond_keepsOrder _ _ _ _ _)) (respond_keepsOrder _ _ _ _ p))

theorem readRecordCommand_keepsOrder (tag : Byte) (index page : Word) (p : Part) :
    KeepsOrder p (readRecordCommand tag index page p) := by
  unfold readRecordCommand
  split
  · dsimp only
    split
    · exact .trans .update (respond_keepsOrder _ _ _ _ _)
    · exact respond_keepsOrder _ _ _ _ p
  · exact respond_keepsOrder _ _ _ _ p

theorem stableCommand_keepsOrder (tag : Byte) (p : Part) : KeepsOrder p (stableCommand tag p) :=
  .ite (.ite (respond_keepsOrder _ _ _ _ p) (.trans .update (respond_keepsOrder _ _ _ _ _)))
    (respond_keepsOrder _ _ _ _ p)

theorem wakeCommand_keepsOrder (tag : Byte) (p : Part) : KeepsOrder p (wakeCommand tag p) :=
  .ite (.trans (.trans .update (leaveStabledIfDue_keepsOrder _)) (respond_keepsOrder _ _ _ _ _))
    (respond_keepsOrder _ _ _ _ p)

theorem unknownCommand_keepsOrder (tag code : Byte) (p : Part) : KeepsOrder p (unknownCommand tag code p) :=
  respond_keepsOrder _ _ _ _ p

theorem acceptCommand_keepsOrder (tag code : Byte) (ws : List Word) (p : Part) :
    KeepsOrder p (acceptCommand tag code ws p) := by
  unfold acceptCommand
  dsimp only
  split
  · exact accept_keepsOrder _ _ (statusCommand_keepsOrder _ _) p
  · exact accept_keepsOrder _ _ (clearStatusCommand_keepsOrder _) p
  · exact accept_keepsOrder _ _ (writeStage_keepsOrder _ _ _ _) p
  · exact accept_keepsOrder _ _ (transfer_keepsOrder _ _ _) p
  · exact accept_keepsOrder _ _ (readEntryCommand_keepsOrder _ _ _ _) p
  · exact accept_keepsOrder _ _ (envelopePointer_keepsOrder _ _) p
  · exact accept_keepsOrder _ _ (envelopeData_keepsOrder _ _ _) p
  · exact accept_keepsOrder _ _ (lockSetupCommand_keepsOrder _) p
  · exact acceptLock_keepsOrder _ _ (lockCommand_keepsOrder lockTable_keepsOrder _ _ _) p
  · exact acceptLock_keepsOrder _ _ (lockCommand_keepsOrder unlockTable_keepsOrder _ _ _) p
  · exact acceptLock_keepsOrder _ _ (lockCommand_keepsOrder (withLock_keepsOrder · .lockedDown) _ _ _) p
  · exact accept_keepsOrder _ _ (setRestrictionCommand_keepsOrder _ _ _) p
  · exact accept_keepsOrder _ _ (readRecordCommand_keepsOrder _ _ _) p
  · exact accept_keepsOrder _ _ (stableCommand_keepsOrder _) p
  · exact accept_keepsOrder _ _ (wakeCommand_keepsOrder _) p
  · exact accept_keepsOrder _ _ (restartCommand_keepsOrder _ _) p
  · exact accept_keepsOrder _ _ (unknownCommand_keepsOrder _ _) p

/-! ### Cells and openings (chapter 2) -/

theorem deliver_keepsOrder (index : Fin 82) (fn : Fn) (kind : Kind) (r : SlotRecord) (p : Part) :
    KeepsOrder p (deliver index fn kind r p) := by
  cases fn with
  | handle => exact .trans .update (.ite .update (.refl _))
  | speed => exact speedStore_keepsOrder r p
  | marker => exact markerStore_keepsOrder r p
  | routeSelect => exact .trans .update (select_keepsOrder _ _)
  | pointStatus => exact pointStore_keepsOrder r p
  | stopButton => exact buttonStore_keepsOrder r p
  | doorStatus => exact doorStore_keepsOrder index r p
  | otherCab => exact takeView_keepsOrder _ p
  | mgmtIn => exact .ite (acceptCommand_keepsOrder _ _ _ p) (.refl p)
  | _ => exact .refl p

theorem storeCell_keepsOrder (g : Governing) (lane : Lane) (c : Cell) (p : Part) :
    KeepsOrder p (storeCell g lane c p) :=
  .trans .update (deliver_keepsOrder _ _ _ _ _)

theorem observeCell_keepsOrder (g : Governing) (lane : Lane) (c : Cell) (p : Part) :
    KeepsOrder p (observeCell g lane c p) := by
  unfold observeCell pairCell
  split
  · exact .refl p
  · dsimp only
    split
    · exact .ite .update (.trans .update (storeCell_keepsOrder g lane c _))
    · exact .ite (.refl p) .update
  · exact .ite (storeCell_keepsOrder g lane c p) (.refl p)
  · exact .ite (storeCell_keepsOrder g lane c p) (.refl p)

theorem disposeCell_keepsOrder (g : Governing) (lane : Lane) (words : List Word) (c : Cell) (valid : Bool)
    (p : Part) : KeepsOrder p (disposeCell g lane words c valid p).1 := by
  have outcome : ∀ o, KeepsOrder p (setOutcome g lane o p) := fun _ => .update
  have observed := (outcome .valid).trans (observeCell_keepsOrder g lane c _)
  cases h : appliedDisposition p.cab.state g.entry with
  | pass => simpa only [disposeCell_pass _ _ _ _ h] using outcome _
  | observe =>
    rw [disposeCell_observe _ _ _ _ h]
    exact .ite observed (outcome _)
  | take =>
    cases valid with
    | false => simpa only [disposeCell_replaced _ _ _ (.inl h)] using outcome _
    | true =>
      cases ha : addressed c p with
      | false => simpa only [disposeCell_take_other _ _ _ h ha] using outcome _
      | true => simpa only [disposeCell_take_addressed _ _ _ h ha] using observed
  | rewrite =>
    cases valid with
    | false => simpa only [disposeCell_replaced _ _ _ (.inr h)] using outcome _
    | true => simpa only [disposeCell_rewrite _ _ _ h] using observed
  | own =>
    rw [disposeCell_own _ _ _ _ h]
    exact .update

theorem handOver_keepsOrder (lane : Lane) (words : List Word) (c : Cell) (valid : Bool) (p : Part) :
    KeepsOrder p (handOver lane words c valid p).1 := by
  unfold handOver
  split
  · exact disposeCell_keepsOrder _ lane words c valid p
  · exact .refl p

theorem closeSlot_keepsOrder (p : Part) : KeepsOrder p (closeSlot p) := by
  rw [closeSlot_eq]
  exact .update

/-- An opening sends, and changes neither a table nor a row. -/
theorem openSlot_keepsOrder (slot : Six) (p : Part) : KeepsOrder p (openSlot slot p) := by
  have sent := openSlot_sendingFrame slot p
  exact .update sent.tables (by rw [sent.caps]; rfl) (by rw [sent.traction]; rfl) (by rw [sent.traction]; rfl)

theorem slotTimer_keepsOrder (p : Part) : KeepsOrder p (slotTimer p) := by
  unfold slotTimer
  split
  · exact (closeSlot_keepsOrder p).trans (openSlot_keepsOrder _ _)
  · exact .refl p

/-! ### Cycle starts and arrivals (R1, R9) -/

theorem doWork_keepsOrder (cs : CycleStart) (w : Work) (p : Part) : KeepsOrder p (doWork cs w p) := by
  cases w with
  | lineLoss => exact presentLoss_keepsOrder _ p
  | cabDesk => exact deskCycle_keepsOrder p
  | cabView => exact takeView_keepsOrder _ p
  | cabStage => exact .ite (stageCycle_keepsOrder p) (.refl p)
  | cabScrub => exact scrubCycle_keepsOrder p
  | traction =>
    have inputs := tractionInputs_keepsOrder cs p
    exact .ite (inputs.trans ((evaluate_keepsOrder _).trans (presentEvaluation_keepsOrder _))) inputs
  | junction => exact junctionCycle_keepsOrder p
  | stop => exact testDoors_keepsOrder p
  | sound => exact soundCycle_keepsOrder p
  | tableStore => exact (sampleDepot_keepsOrder p).trans (completeTransfer_keepsOrder _)

theorem presentCycle_keepsOrder (loss : Option LossChange) (order : List Work) (p : Part) :
    KeepsOrder p (presentCycle loss order p) :=
  presentCycle_keeps (KeepsOrder p) loss order p .update
    fun cs w _ h => h.trans (doWork_keepsOrder cs w _)

theorem decideLanes_keepsOrder (down up : Bool) (p : Part) : KeepsOrder p (decideLanes down up p) :=
  .trans .update (presentLoss_keepsOrder _ _)

theorem endCycle_keepsOrder (p : Part) : KeepsOrder p (endCycle p) := (closeSlot_keepsOrder p).trans .update

theorem beaconStart_keepsOrder (lane : Lane) (cycle : Six) (order : List Work) (p : Part) :
    KeepsOrder p (beaconStart lane cycle order p) := by
  refine .trans ?_ (presentCycle_keepsOrder _ order _)
  exact (endCycle_keepsOrder p).trans (.trans .update (openSlot_keepsOrder 0 _))

theorem substituteStart_keepsOrder (order : List Work) (p : Part) : KeepsOrder p (substituteStart order p) :=
  .trans ((endCycle_keepsOrder p).trans .update) (presentCycle_keepsOrder _ order _)

theorem beaconArrival_keepsOrder (lane : Lane) (cycle : Six) (order : List Work) (p : Part) :
    KeepsOrder p (beaconArrival lane cycle order p) := by
  have started := beaconStart_keepsOrder lane cycle order p
  exact .ite (.ite (.ite .update started) (.ite .update (.ite .update started))) started

theorem driveOut_keepsOrder (lane : Lane) {p : Part} {x : Part × Option (List Word)} (h : KeepsOrder p x.1) :
    KeepsOrder p (driveOut lane x) := by
  unfold driveOut
  split
  · exact h.trans (drive_keepsOrder _ _ _)
  · exact h

theorem cellArrivalIn_keepsOrder (lane : Lane) (words : List Word) (c : Cell) (intact : Bool) (p : Part) :
    KeepsOrder p (cellArrivalIn lane words c intact p) := by
  have counted : KeepsOrder p (countError lane p) := .update
  unfold cellArrivalIn slotArrival
  split
  · refine .ite (counted.trans (drive_keepsOrder _ _ _)) (driveOut_keepsOrder lane ?_)
    exact .trans (.trans (.ite (.refl p) counted) .update) (handOver_keepsOrder _ _ _ _ _)
  · exact .trans (.ite (.refl p) counted) (drive_keepsOrder _ _ _)

theorem arrive_keepsOrder (lane : Lane) (words : List Word) (order : List Work) (p : Part) :
    KeepsOrder p (arrive lane words order p) := by
  unfold arrive
  split
  · exact .ite ((beaconArrival_keepsOrder lane _ order p).trans (drive_keepsOrder _ _ _))
      (cellArrivalIn_keepsOrder lane words _ _ p)
  · exact cellArrivalIn_keepsOrder lane words _ _ p

/-! ### Steps -/

/-- Power-on reset meets both invariants whatever was before. -/
theorem powerOnReset_keepsOrder (lines : ResetLines) (p : Part) :
    KeepsOrder p (if lines.resetN then resetPart lines.toLines else heldPart lines.toLines p) := by
  have reset : ∀ q : Part, q.tables = State.reset.part.tables → q.caps = State.reset.part.caps →
      q.traction = State.reset.part.traction → KeepsOrder p q := fun q tables caps traction =>
    ⟨fun _ => tablesOk_reset.congr tables (by rw [caps]),
      fun _ _ => demandOk_reset.congr (by rw [traction]) (by rw [traction])⟩
  exact .ite (reset _ rfl rfl rfl) (reset _ rfl rfl rfl)

theorem onPart_keepsOrder {f : Part → Part} (h : ∀ p, KeepsOrder p (f p)) {s t : State}
    (e : (Host.Outcome.next (s.onPart f) : Host.Outcome State Fault Refusal) = .next t) :
    KeepsOrder s.part t.part := by
  cases e
  exact h s.part

/-- An event inside a block, where its condition holds. -/
theorem when_keepsOrder {c : Part → Bool} {f : Part → Part} (h : ∀ p, KeepsOrder p (f p)) {s t : State}
    (e : when c f s = .next t) : KeepsOrder s.part t.part :=
  onPart_keepsOrder (fun p => .ite (h p) (.refl p)) e

/-- Every command keeps the tables in order, and with them the demand's range. -/
theorem exec_keepsOrder (c : Instr) {s t : State} (e : exec c s = .next t) : KeepsOrder s.part t.part := by
  cases c with
  | powerOnReset lines => exact onPart_keepsOrder (powerOnReset_keepsOrder lines) e
  | cellArrival lane words lines order =>
    exact onPart_keepsOrder (fun p => .ite (.trans .update (arrive_keepsOrder lane words order _)) (.refl p)) e
  | substituteCycleStart lines order =>
    exact onPart_keepsOrder (fun p => .ite (.trans .update (substituteStart_keepsOrder order _)) (.refl p)) e
  | slotOpening => exact onPart_keepsOrder slotTimer_keepsOrder e
  | laneDown => exact onPart_keepsOrder (decideLanes_keepsOrder _ _) e
  | laneUp => exact onPart_keepsOrder (decideLanes_keepsOrder _ _) e
  | otherCabTimeout => exact when_keepsOrder (takeView_keepsOrder _) e
  | activationAttempt => exact when_keepsOrder attempt_keepsOrder e
  | settleComplete => exact when_keepsOrder (fun _ => .update) e
  | brakeTimeout => exact when_keepsOrder (activationFails_keepsOrder _ _ _) e
  | entryToActive => exact when_keepsOrder enterActive_keepsOrder e
  | pendingExitTaken => exact when_keepsOrder takeExit_keepsOrder e
  | scrubPassBegin => exact when_keepsOrder (fun _ => .trans .update (scrubTable_keepsOrder _ _)) e
  | stabledExit => exact when_keepsOrder leaveStabled_keepsOrder e
  | speedSourceStale => exact when_keepsOrder speedGoesStale_keepsOrder e
  | speedLockAcquired => exact when_keepsOrder (fun _ => .update) e
  | selectionTimeout => exact when_keepsOrder (select_keepsOrder 0) e
  | requestTimeout pos => exact when_keepsOrder (timeOut_keepsOrder pos) e
  | doorStatusStale => exact when_keepsOrder (fun _ => .update) e
  | phaseEnd ch => exact when_keepsOrder (endChannelPhase_keepsOrder ch) e
  | stepEnd ch => exact when_keepsOrder (endChannelStep_keepsOrder ch) e
  | hornMinReached => exact when_keepsOrder (fun _ => .update) e
  | hornStuck => exact when_keepsOrder (fun _ => .update) e
  | transferCompletion => exact when_keepsOrder completeTransfer_keepsOrder e
  | status tag page => exact onPart_keepsOrder (accept_keepsOrder _ _ (statusCommand_keepsOrder _ _)) e
  | clearStatus tag => exact onPart_keepsOrder (accept_keepsOrder _ _ (clearStatusCommand_keepsOrder _)) e
  | writeStage tag offset count words =>
    exact onPart_keepsOrder (accept_keepsOrder _ _ (writeStage_keepsOrder _ _ _ _)) e
  | transfer tag table index => exact onPart_keepsOrder (accept_keepsOrder _ _ (transfer_keepsOrder _ _ _)) e
  | readEntry tag table index offset =>
    exact onPart_keepsOrder (accept_keepsOrder _ _ (readEntryCommand_keepsOrder _ _ _ _)) e
  | envelopePointer tag breakpoint =>
    exact onPart_keepsOrder (accept_keepsOrder _ _ (envelopePointer_keepsOrder _ _)) e
  | envelopeData tag count values =>
    exact onPart_keepsOrder (accept_keepsOrder _ _ (envelopeData_keepsOrder _ _ _)) e
  | lockSetup tag => exact onPart_keepsOrder (accept_keepsOrder _ _ (lockSetupCommand_keepsOrder _)) e
  | lock tag table =>
    exact onPart_keepsOrder (acceptLock_keepsOrder _ _ (lockCommand_keepsOrder lockTable_keepsOrder _ _ _)) e
  | unlock tag table =>
    exact onPart_keepsOrder (acceptLock_keepsOrder _ _ (lockCommand_keepsOrder unlockTable_keepsOrder _ _ _)) e
  | lockDown tag table =>
    exact onPart_keepsOrder
      (acceptLock_keepsOrder _ _ (lockCommand_keepsOrder (withLock_keepsOrder · .lockedDown) _ _ _)) e
  | setRestriction tag action value =>
    exact onPart_keepsOrder (accept_keepsOrder _ _ (setRestrictionCommand_keepsOrder _ _ _)) e
  | readRecord tag index page =>
    exact onPart_keepsOrder (accept_keepsOrder _ _ (readRecordCommand_keepsOrder _ _ _)) e
  | stable tag => exact onPart_keepsOrder (accept_keepsOrder _ _ (stableCommand_keepsOrder _)) e
  | wake tag => exact onPart_keepsOrder (accept_keepsOrder _ _ (wakeCommand_keepsOrder _)) e
  | restart tag lines => exact onPart_keepsOrder (accept_keepsOrder _ _ (restartCommand_keepsOrder _ _)) e
  | unknownCommand tag code => exact onPart_keepsOrder (accept_keepsOrder _ _ (unknownCommand_keepsOrder _ _)) e

/-- Settles O58: by cases on the command at the front of the queue. -/
theorem stepKeepsTheTablesAndTheDemand : Obligations.StepKeepsTheTablesAndTheDemand := by
  intro s t h e
  have keeps : KeepsOrder s.part t.part := by
    unfold step at e
    split at e
    · cases e
      exact .refl _
    · next c rest _ => exact exec_keepsOrder (s := { s with pending := rest }) c e
  exact ⟨keeps.tables h, keeps.demand h⟩

end Sys2Proof.Machine
end

section
/-! ## What the junction unit and the alarm conditions stand on (R111, R112, R128, R164)

`KeepsJunction` carries both invariants of O59 through an operation: the lamp's needs the junction unit's,
since outside ACTIVE and HOLD the conditions end because nothing is open. First what an operation can do to
either of them: leave it alone, place a record with its row, close one, queue a RELEASE, or end a drive. -/

namespace Sys2Proof.Machine

set_option Elab.async false

/-- From `p` to `q` the junction unit's invariant is kept, and with it that of the alarm conditions. -/
structure KeepsJunction (p q : Part) : Prop where
  rows : JunctionOk p → JunctionOk q
  lamp : JunctionOk p → LampOk p → LampOk q

namespace KeepsJunction

theorem refl (p : Part) : KeepsJunction p p := ⟨id, fun _ => id⟩

theorem trans {p q r : Part} (a : KeepsJunction p q) (b : KeepsJunction q r) : KeepsJunction p r :=
  ⟨b.rows ∘ a.rows, fun hj hl => b.lamp (a.rows hj) (a.lamp hj hl)⟩

/-- Through either branch of a test. -/
theorem ite {p a b : Part} {c : Prop} [Decidable c] (ha : c → KeepsJunction p a)
    (hb : ¬ c → KeepsJunction p b) : KeepsJunction p (if c then a else b) := by
  split
  · next h => exact ha h
  · next h => exact hb h

theorem foldl {α : Type} {f : Part → α → Part} (h : ∀ p x, KeepsJunction p (f p x)) (xs : List α) (p : Part) :
    KeepsJunction p (xs.foldl f p) := by
  induction xs generalizing p with
  | nil => exact .refl p
  | cons x xs ih => exact (h p x).trans (ih _)

/-- An operation may rely on the invariant that it is asked to keep. -/
theorem of_ok {p q : Part} (h : JunctionOk p → KeepsJunction p q) : KeepsJunction p q :=
  ⟨fun hj => (h hj).rows hj, fun hj => (h hj).lamp hj⟩

end KeepsJunction

/-- The four alarm conditions stand (R164). -/
structure SameAlarms (a b : Sound) : Prop where
  junctionFault : b.junctionFault = a.junctionFault
  overflow : b.overflow = a.overflow
  forced : b.forced = a.forced
  envelope : b.envelope = a.envelope

theorem SameAlarms.refl (a : Sound) : SameAlarms a a := ⟨rfl, rfl, rfl, rfl⟩

theorem SameAlarms.trans {a b c : Sound} (h : SameAlarms a b) (k : SameAlarms b c) : SameAlarms a c :=
  ⟨k.1.trans h.1, k.2.trans h.2, k.3.trans h.3, k.4.trans h.4⟩

theorem SameDesk.sameAlarms {a b : Sound} (h : SameDesk a b) : SameAlarms a b :=
  ⟨h.junctionFault, h.overflow, h.forced, h.envelope⟩

/-! ### What the invariants say (R111, R128) -/

theorem openCount_eq_zero_iff (p : Part) : openCount p = 0 ↔ ∀ pos, openAt p pos = none := by
  simp [openCount, List.countP_eq_zero, mem_positions]

theorem anyFault_iff (list : Vector (Option JunctionRecord) 4) :
    anyFault list = true ↔ ∃ pos : Fin 4, (list[pos]).any inFault = true := by
  simp [anyFault, List.any_eq_true, mem_positions]

section
variable {p : Part}

/-- Outside ACTIVE and HOLD no record is open. -/
theorem JunctionOk.openAt_idle (h : JunctionOk p) (hidle : cabLive p = false) (pos : Fin 4) :
    openAt p pos = none := by
  obtain ⟨-, -, -, idle⟩ := h
  exact (openCount_eq_zero_iff p).mp (idle hidle).1 pos

theorem JunctionOk.overflow_idle (h : JunctionOk p) (hidle : cabLive p = false) : p.caps.overflow = none := by
  obtain ⟨-, -, -, idle⟩ := h
  exact (idle hidle).2.2

theorem JunctionOk.queue_idle (h : JunctionOk p) (hidle : cabLive p = false) : p.junction.queue = [] := by
  obtain ⟨-, -, -, idle⟩ := h
  exact (idle hidle).2.1

/-- A record is open in ACTIVE and HOLD alone. -/
theorem JunctionOk.live (h : JunctionOk p) {pos : Fin 4} {r : JunctionRecord} (hr : openAt p pos = some r) :
    cabLive p = true := by
  by_contra hidle
  simp [h.openAt_idle (Bool.eq_false_iff.mpr hidle)] at hr

/-- Outside ACTIVE and HOLD no record is in FAULT. -/
theorem JunctionOk.noFault_idle (h : JunctionOk p) (hidle : cabLive p = false) :
    anyFault p.junction.list = false := by
  rw [← Bool.not_eq_true, anyFault_iff]
  rintro ⟨pos, hf⟩
  have none : p.junction.list[pos] = none := h.openAt_idle hidle pos
  simp [none] at hf

/-- No other record is open for the junction of an open record. -/
theorem JunctionOk.others (h : JunctionOk p) {pos : Fin 4} {r : JunctionRecord} (hr : openAt p pos = some r)
    (pos' : Fin 4) (hne : pos' ≠ pos) (r' : JunctionRecord) (hr' : openAt p pos' = some r') :
    r'.junction ≠ r.junction := by
  obtain ⟨-, -, distinct, -⟩ := h
  exact distinct pos' pos hne r' r hr' hr

end

/-- `JunctionOk` reads the list, the release queue, the JUNCTION and OVERFLOW rows, and whether the cab is
live. -/
theorem JunctionOk.congr {p q : Part} (h : JunctionOk p) (list : q.junction.list = p.junction.list)
    (queue : q.junction.queue = p.junction.queue) (rows : q.caps.junctions = p.caps.junctions)
    (overflow : q.caps.overflow = p.caps.overflow) (live : cabLive q = false → cabLive p = false) :
    JunctionOk q := by
  obtain ⟨present, zero, distinct, idle⟩ := h
  unfold JunctionOk openCount openAt at *
  rw [list, queue, rows, overflow]
  exact ⟨present, zero, distinct, fun hidle => idle (live hidle)⟩

/-- Whether the episode and the envelope alarm have ended where the cab leaves ACTIVE (R91, R96). -/
def QuietOutsideActive (p q : Part) : Prop :=
  q.cab.state ≠ .active →
    p.cab.state ≠ .active ∨ (p.traction.episode = false ∧ p.traction.envelopeAlarm = false)

theorem LampOk.congr {p q : Part} (h : LampOk p) (list : q.junction.list = p.junction.list)
    (overflow : q.caps.overflow = p.caps.overflow) (alarms : SameAlarms p.sound q.sound)
    (episode : q.traction.episode = p.traction.episode)
    (envelope : q.traction.envelopeAlarm = p.traction.envelopeAlarm) (active : QuietOutsideActive p q) :
    LampOk q := by
  obtain ⟨hfault, hoverflow, hforced, henvelope, hactive⟩ := h
  obtain ⟨sfault, soverflow, sforced, senvelope⟩ := alarms
  refine ⟨by rw [sfault, hfault, list], by rw [soverflow, hoverflow, overflow], by rw [sforced, hforced, episode],
    by rw [senvelope, henvelope, envelope], fun hq => ?_⟩
  rw [episode, envelope]
  rcases active hq with hp | ended
  · exact hactive hp
  · exact ended

/-- An update that leaves what the two invariants read. -/
theorem KeepsJunction.update {p q : Part} (list : q.junction.list = p.junction.list := by rfl)
    (queue : q.junction.queue = p.junction.queue := by rfl)
    (rows : q.caps.junctions = p.caps.junctions := by rfl)
    (overflow : q.caps.overflow = p.caps.overflow := by rfl)
    (alarms : SameAlarms p.sound q.sound := by exact ⟨rfl, rfl, rfl, rfl⟩)
    (episode : q.traction.episode = p.traction.episode := by rfl)
    (envelope : q.traction.envelopeAlarm = p.traction.envelopeAlarm := by rfl)
    (live : cabLive q = false → cabLive p = false := by exact id)
    (active : QuietOutsideActive p q := by exact Or.inl) : KeepsJunction p q :=
  ⟨fun h => h.congr list queue rows overflow live,
    fun _ h => h.congr list overflow alarms episode envelope active⟩

/-- An update of the sound unit that leaves the alarm conditions. -/
theorem KeepsJunction.of_sound {p q : Part} (alarms : SameAlarms p.sound q.sound)
    (junction : q.junction = p.junction := by rfl) (rows : q.caps.junctions = p.caps.junctions := by rfl)
    (overflow : q.caps.overflow = p.caps.overflow := by rfl) (traction : q.traction = p.traction := by rfl)
    (cab : q.cab = p.cab := by rfl) : KeepsJunction p q :=
  .update (by rw [junction]) (by rw [junction]) rows overflow alarms (by rw [traction]) (by rw [traction])
    (by rw [cabLive, cab]; exact id) (by rw [QuietOutsideActive, cab]; exact Or.inl)

/-- From a cab state outside ACTIVE and HOLD to one that is no drive either (R128). -/
theorem not_active_of_not_live {p : Part} (h : cabLive p = false) : p.cab.state ≠ .active := fun hs => by
  simp [cabLive, hs] at h

/-! ### Records and rows (R111, R112) -/

/-- The condition that the sound unit holds follows the list (R112, R164). -/
theorem faultCondition_eq {before after : Vector (Option JunctionRecord) 4} {held : Bool}
    (h : held = anyFault before) : faultCondition before after held = anyFault after := by
  unfold faultCondition
  split
  · next same => rw [h, same]
  · rfl

theorem LampOk.withList {p : Part} (h : LampOk p) (list : Vector (Option JunctionRecord) 4) :
    LampOk (withList list p) := by
  obtain ⟨fault, rest⟩ := h
  exact ⟨faultCondition_eq fault, rest⟩

/-- A row of a position other than the one given stands when that is put. -/
theorem putRow_junction_ne (c : CapTable) {pos pos' : Fin 4} (h : pos ≠ pos') (v : Option Nat) :
    (putRow c (.junction pos) v).junctions[pos'] = c.junctions[pos'] := by
  simp [putRow, Fin.val_ne_of_ne h]

@[simp] theorem putRow_junction_self (c : CapTable) (pos : Fin 4) (v : Option Nat) :
    (putRow c (.junction pos) v).junctions[pos] = v := by
  simp [putRow]

section
variable {p : Part} {pos : Fin 4} {r : JunctionRecord}

/-- A record placed with its row: in ACTIVE or HOLD, for a junction that no other position has, and with the
row at 0 if it is in FAULT. -/
theorem place_keepsJunction (live : cabLive p = true) (others : ∀ pos' ≠ pos, ∀ r', openAt p pos' = some r' →
      r'.junction ≠ r.junction) {v : Nat} (fault : inFault r = true → v = 0) :
    KeepsJunction p (setRow (.junction pos) v (putOpen pos r p)) := by
  have other : ∀ pos', pos ≠ pos' →
      openAt (setRow (.junction pos) v (putOpen pos r p)) pos' = openAt p pos' := fun pos' hne =>
    openAt_putOpen_ne hne r p
  have self : openAt (setRow (.junction pos) v (putOpen pos r p)) pos = some r := openAt_putOpen_self pos r p
  refine ⟨fun ⟨present, zero, distinct, _⟩ => ⟨fun pos' => ?_, fun pos' hf => ?_, fun i j hij ri rj hi hj => ?_,
    fun idle => ?_⟩, fun _ hl => ?_⟩
  · by_cases e : pos = pos'
    · subst e
      rw [self, setRow_caps, putRow_junction_self]
      rfl
    · rw [other pos' e, setRow_caps, putRow_junction_ne _ e]
      exact present pos'
  · by_cases e : pos = pos'
    · subst e
      rw [self] at hf
      rw [setRow_caps, putRow_junction_self, fault hf]
    · rw [other pos' e] at hf
      rw [setRow_caps, putRow_junction_ne _ e]
      exact zero pos' hf
  · by_cases ei : pos = i
    · subst ei
      rw [self] at hi
      rw [other j hij] at hj
      cases hi
      exact (others j (Ne.symm hij) rj hj).symm
    · rw [other i ei] at hi
      by_cases ej : pos = j
      · subst ej
        rw [self] at hj
        cases hj
        exact others i (Ne.symm ei) ri hi
      · rw [other j ej] at hj
        exact distinct i j hij ri rj hi hj
  · exact absurd (idle.symm.trans live) (by decide)
  · exact (hl.withList _).congr rfl rfl (.refl _) rfl rfl Or.inl

/-- A row written over by its own value is the row. -/
theorem setRow_junction_same {v : Nat} (h : p.caps.junctions[pos] = some v) : setRow (.junction pos) v p = p := by
  have rows : p.caps.junctions.set pos (some v) = p.caps.junctions := by
    refine Vector.ext fun i hi => ?_
    rw [Vector.getElem_set]
    split
    · next e => subst e; exact h.symm
    · rfl
  simp only [setRow, putRow, rows]

/-- An open record that changes, and is in FAULT only where it was, keeps its row. -/
theorem putOpen_keepsJunction {r' : JunctionRecord} (hr : openAt p pos = some r)
    (junction : r'.junction = r.junction) (fault : inFault r' = true → inFault r = true) :
    KeepsJunction p (putOpen pos r' p) := by
  refine .of_ok fun h => ?_
  obtain ⟨present, zero, -, -⟩ := id h
  obtain ⟨v, hv⟩ : ∃ v, p.caps.junctions[pos] = some v :=
    Option.isSome_iff_exists.mp ((present pos).trans (by rw [hr]; rfl))
  have kept : setRow (.junction pos) v (putOpen pos r' p) = putOpen pos r' p := setRow_junction_same hv
  rw [← kept]
  refine place_keepsJunction (h.live hr) (fun pos' hne x hx => ?_) fun hf => ?_
  · rw [junction]
    exact h.others hr pos' hne x hx
  · have row := zero pos (by rw [hr]; exact fault hf)
    exact Option.some.inj (hv.symm.trans row)

/-- An open record that changes, with its row set: at 0 if it is in FAULT. -/
theorem reopen_keepsJunction {r' : JunctionRecord} (hr : openAt p pos = some r)
    (junction : r'.junction = r.junction) {v : Nat} (fault : inFault r' = true → v = 0) :
    KeepsJunction p (setRow (.junction pos) v (putOpen pos r' p)) :=
  .of_ok fun h => place_keepsJunction (h.live hr)
    (fun pos' hne x hx => by rw [junction]; exact h.others hr pos' hne x hx) fault

end

/-- A position is freed with its row withdrawn (R123, R129). -/
theorem free_keepsJunction (p : Part) (pos : Fin 4) :
    KeepsJunction p (withList (p.junction.list.set pos none) (withdrawRow (.junction pos) p)) := by
  have self : openAt (withList (p.junction.list.set pos none) (withdrawRow (.junction pos) p)) pos = none := by
    simp
  have other : ∀ pos', pos ≠ pos' →
      openAt (withList (p.junction.list.set pos none) (withdrawRow (.junction pos) p)) pos' = openAt p pos' :=
    fun pos' hne => by simp [openAt, Fin.val_ne_of_ne hne]
  generalize hq : withList (p.junction.list.set pos none) (withdrawRow (.junction pos) p) = q at self other
  have caps : q.caps = putRow p.caps (.junction pos) none := by rw [← hq]; rfl
  have remains : ∀ {i x}, openAt q i = some x → openAt p i = some x := fun {i x} hi => by
    by_cases e : pos = i
    · subst e; simp [self] at hi
    · rwa [other i e] at hi
  refine ⟨fun ⟨present, zero, distinct, idle⟩ => ⟨fun pos' => ?_, fun pos' hf => ?_,
    fun i j hij ri rj hi hj => distinct i j hij ri rj (remains hi) (remains hj), fun hidle => ?_⟩, fun _ hl => ?_⟩
  · by_cases e : pos = pos'
    · subst e
      rw [self, caps, putRow_junction_self]
      rfl
    · rw [other pos' e, caps, putRow_junction_ne _ e]
      exact present pos'
  · by_cases e : pos = pos'
    · subst e
      simp [self] at hf
    · rw [other pos' e] at hf
      rw [caps, putRow_junction_ne _ e]
      exact zero pos' hf
  · have before : openCount p = 0 ∧ p.junction.queue = [] ∧ p.caps.overflow = none :=
      idle (by rw [← hq] at hidle; exact hidle)
    obtain ⟨count, queue, overflow⟩ := before
    refine ⟨(openCount_eq_zero_iff q).mpr fun i => ?_, by rw [← hq]; exact queue, by rw [caps]; exact overflow⟩
    by_cases e : pos = i
    · rw [← e, self]
    · rw [other i e, (openCount_eq_zero_iff p).mp count i]
  · rw [← hq]
    exact LampOk.withList (hl.congr rfl rfl (.refl _) rfl rfl Or.inl) _

/-- The release queue changes in ACTIVE and HOLD alone (R128). -/
theorem queue_keepsJunction {p q : Part} (live : cabLive p = true)
    (junction : q.junction = { p.junction with queue := q.junction.queue } := by rfl)
    (caps : q.caps = p.caps := by rfl) (sound : q.sound = p.sound := by rfl)
    (traction : q.traction = p.traction := by rfl) (cab : q.cab = p.cab := by rfl) : KeepsJunction p q := by
  have list : q.junction.list = p.junction.list := by rw [junction]
  refine ⟨fun ⟨present, zero, distinct, _⟩ => ?_, fun _ hl => ?_⟩
  · unfold JunctionOk openCount openAt at *
    rw [list, caps]
    refine ⟨present, zero, distinct, fun idle => ?_⟩
    rw [cabLive, cab] at idle
    exact absurd (idle.symm.trans live) (by decide)
  · exact hl.congr list (by rw [caps]) (by rw [sound]; exact .refl _) (by rw [traction]) (by rw [traction])
      (by rw [QuietOutsideActive, cab]; exact Or.inl)

/-! ### The end of a drive and the reset (R102, R129, R165) -/

/-- Nothing is open and every alarm condition has ended. -/
theorem lampOk_of_silence {p : Part} (lamp : alarmLamp p = false) (fault : anyFault p.junction.list = false)
    (overflow : p.caps.overflow = none) (episode : p.traction.episode = false)
    (envelope : p.traction.envelopeAlarm = false) : LampOk p := by
  simp only [alarmLamp, Bool.or_eq_false_iff] at lamp
  obtain ⟨⟨⟨hfault, hoverflow⟩, hforced⟩, henvelope⟩ := lamp
  exact ⟨hfault.trans fault.symm, by rw [hoverflow, overflow]; rfl, hforced.trans episode.symm,
    henvelope.trans envelope.symm, fun _ => ⟨episode, envelope⟩⟩

theorem anyFault_of_empty {p : Part} (h : ∀ pos, openAt p pos = none) : anyFault p.junction.list = false := by
  rw [← Bool.not_eq_true, anyFault_iff]
  rintro ⟨pos, hf⟩
  have none : p.junction.list[pos] = none := h pos
  simp [none] at hf

/-- A teardown leaves nothing open and no condition (R129). -/
theorem teardown_keepsJunction (p : Part) : KeepsJunction p (teardown p) := by
  refine .of_ok fun h => ?_
  obtain ⟨-, row, empty, queue, -, -, -, -, -, -, -, -, -, -, lamp, -, traction, -⟩ :=
    teardown_tornDown p h.rowsFollowRecords
  have overflow : (teardown p).caps.overflow = none := row .overflow
  refine ⟨fun _ => ⟨fun pos => ?_, fun pos hf => ?_, fun pos pos' _ r r' hr => ?_, fun _ => ?_⟩, fun _ _ => ?_⟩
  · have junction : (teardown p).caps.junctions[pos] = none := row (.junction pos)
    rw [junction, empty]
    rfl
  · simp [empty] at hf
  · simp [empty] at hr
  · exact ⟨(openCount_eq_zero_iff _).mpr empty, queue, overflow⟩
  · exact lampOk_of_silence lamp (anyFault_of_empty empty) overflow (by rw [traction]) (by rw [traction])

/-- An activation that ends has opened nothing, and leaves no condition (R56, R165). -/
theorem activationEnds_keepsJunction {p : Part} (hs : p.cab.state = .activating) :
    KeepsJunction p (activationEnds p) := by
  have idle : cabLive p = false := by simp [cabLive, hs]
  refine ⟨fun h => h.congr rfl rfl rfl rfl fun _ => idle, fun h hl => ?_⟩
  obtain ⟨-, -, -, -, ended⟩ := hl
  obtain ⟨episode, envelope⟩ := ended (not_active_of_not_live idle)
  exact lampOk_of_silence rfl (h.noFault_idle idle) (h.overflow_idle idle) episode envelope

theorem activationFails_keepsJunction {p : Part} (hs : p.cab.state = .activating) (cause : FaultCause)
    (stage : Stage) (table : Option TableId) : KeepsJunction p (activationFails cause stage table p) :=
  .trans .update (activationEnds_keepsJunction hs)

theorem activationYields_keepsJunction {p : Part} (hs : p.cab.state = .activating) :
    KeepsJunction p (activationYields p) :=
  .trans .update (activationEnds_keepsJunction hs)

/-- A reset of the blocks meets both invariants whatever was before (R130, R166). -/
theorem reset_keepsJunction {p q : Part} {lineCap : Nat}
    (junction : q.junction = JunctionUnit.reset := by rfl) (caps : q.caps = CapTable.reset lineCap := by rfl)
    (sound : q.sound = Sound.reset := by rfl) (traction : q.traction = Traction.reset := by rfl) :
    KeepsJunction p q := by
  have list : q.junction.list = State.reset.part.junction.list := by rw [junction]; rfl
  have overflow : q.caps.overflow = State.reset.part.caps.overflow := by rw [caps]; rfl
  refine ⟨fun _ => junctionOk_reset.congr list (by rw [junction]; rfl) (by rw [caps]; rfl) overflow
      fun _ => rfl, fun _ _ => lampOk_reset.congr list overflow (by rw [sound]; exact .refl _)
      (by rw [traction]; rfl) (by rw [traction]; rfl) fun _ => .inl (by decide)⟩

end Sys2Proof.Machine
end

section
/-! ## The junction rows and the alarm conditions through the operations of the blocks (O59) -/

namespace Sys2Proof.Machine

set_option Elab.async false

/-! ### Sound unit -/

theorem request_keepsJunction (x : Source) (p : Part) : KeepsJunction p (request x p) :=
  .of_sound (requestSource_desk _ _ x p.sound).sameAlarms

theorem withdrawSource_keepsJunction (x : Source) (p : Part) : KeepsJunction p (withdrawSource x p) :=
  .of_sound (stopSource_desk _ x p.sound).sameAlarms

theorem requestSource_sameAlarms (c : List Word) (acts : Bool) (x : Source) (snd : Sound) :
    SameAlarms snd (requestSource c acts x snd) := (requestSource_desk c acts x snd).sameAlarms

theorem bellPressed_sameAlarms (c : List Word) (acts : Bool) (snd : Sound) :
    SameAlarms snd (bellPressed c acts snd) := by
  unfold bellPressed
  split
  · exact ⟨rfl, rfl, rfl, rfl⟩
  · exact requestSource_sameAlarms c acts _ snd

theorem bellReleased_sameAlarms (snd : Sound) : SameAlarms snd (bellReleased snd) := by
  unfold bellReleased
  split <;> exact ⟨rfl, rfl, rfl, rfl⟩

theorem sampleBell_sameAlarms (c : List Word) (active acts level : Bool) (snd : Sound) :
    SameAlarms snd (sampleBell c active acts level snd) := by
  have sampled : SameAlarms snd { snd with bellBtn := sampled snd.bellBtn level } := ⟨rfl, rfl, rfl, rfl⟩
  unfold sampleBell
  dsimp only
  split
  · split
    · split
      · exact sampled.trans (bellPressed_sameAlarms c acts _)
      · exact sampled
    · exact sampled.trans (bellReleased_sameAlarms _)
  · exact sampled

theorem sampleHorn_sameAlarms (acts level : Bool) (snd : Sound) :
    SameAlarms snd (sampleHorn acts level snd) := by
  unfold sampleHorn hornRecognised
  dsimp only
  split
  · split <;> exact ⟨rfl, rfl, rfl, rfl⟩
  · exact ⟨rfl, rfl, rfl, rfl⟩

theorem sampleAck_sameAlarms (c : List Word) (level : Bool) (snd : Sound) :
    SameAlarms snd (sampleAck c level snd) := by
  have sampled : SameAlarms snd { snd with ackBtn := sampled snd.ackBtn level } := ⟨rfl, rfl, rfl, rfl⟩
  unfold sampleAck
  dsimp only
  split
  · exact sampled.trans (stopSource_desk c .alarm _).sameAlarms
  · exact sampled

theorem continueOrYield_desk (c : List Word) (x : Source) (ys : List Source) (snd : Sound) :
    SameDesk snd (continueOrYield c x ys snd) := by
  induction ys generalizing snd with
  | nil => exact beginStep_desk c x snd
  | cons y ys ih =>
    unfold continueOrYield
    split
    · split
      · exact (toIdle_desk y snd).trans (ih _)
      · exact (putSource_desk snd x _).trans (beginStep_desk c y _)
    · exact ih snd

theorem endStep_desk (c : List Word) (x : Source) (snd : Sound) : SameDesk snd (endStep c x snd) := by
  unfold endStep
  split
  · exact (toIdle_desk x snd).trans (startBest_desk _ _ _)
  · exact (putSource_desk snd x _).trans (continueOrYield_desk _ _ _ _)

theorem countChannel_desk (c : List Word) (ch : Channel) (snd : Sound) :
    SameDesk snd (countChannel c ch snd) := by
  unfold countChannel
  split
  · exact .refl snd
  · next x _ =>
    have counted : ∀ v, SameDesk snd (putSource snd x v) := putSource_desk snd x
    dsimp only
    split
    · split
      · exact (counted _).trans (putSource_desk _ _ _)
      · split
        · exact (counted _).trans (endStep_desk _ _ _)
        · exact counted _
    · exact .refl snd

theorem countHorn_keepsJunction (wasOn : Bool) (p : Part) : KeepsJunction p (countHorn wasOn p) :=
  .ite (fun _ => .ite (fun _ => .update) (fun _ => .ite (fun _ => .update) (fun _ => .update)))
    (fun _ => .refl p)

/-- The sound unit's work counts and plays, and judges no condition (R153). -/
theorem soundCycle_keepsJunction (p : Part) : KeepsJunction p (soundCycle p) := by
  refine .trans (.of_sound ?_) (countHorn_keepsJunction _ _)
  have sampled := ((sampleBell_sameAlarms p.tables.cadence.words (p.cab.state == .active) (cabActs p)
    p.lines.bellBtn p.sound).trans (sampleHorn_sameAlarms (cabActs p) p.lines.hornBtn _)).trans
    (sampleAck_sameAlarms p.tables.cadence.words p.lines.ackBtn _)
  exact sampled.trans ((countChannel_desk _ .bell _).trans (countChannel_desk _ .chime _)).sameAlarms

theorem endChannelPhase_keepsJunction (ch : Channel) (p : Part) : KeepsJunction p (endChannelPhase ch p) := by
  unfold endChannelPhase
  split
  · exact .of_sound (putSource_desk _ _ _).sameAlarms
  · exact .refl p

theorem endChannelStep_keepsJunction (ch : Channel) (p : Part) : KeepsJunction p (endChannelStep ch p) := by
  unfold endChannelStep
  split
  · exact .of_sound (endStep_desk _ _ _).sameAlarms
  · exact .refl p

/-! ### Stop unit -/

theorem testDoors_keepsJunction (p : Part) : KeepsJunction p (testDoors p) :=
  .ite (fun _ => .update) (fun _ => .update)

theorem tripPhase_keepsJunction (p : Part) : KeepsJunction p (tripPhase p) := by
  unfold tripPhase changeToAtStop changeToRunning
  split
  · exact .ite (fun _ => .trans .update (withdrawSource_keepsJunction .depart _)) (fun _ => .refl p)
  · exact .ite (fun _ => .ite (fun _ => .trans .update (request_keepsJunction .depart _)) (fun _ => .update))
      (fun _ => .refl p)

theorem doorStore_keepsJunction (source : Fin 82) (r : SlotRecord) (p : Part) :
    KeepsJunction p (doorStore source r p) := by
  have judged : ∀ q, KeepsJunction q (advanceAssistances (clearDoorOpen (tripPhase q))) := fun q =>
    (tripPhase_keepsJunction q).trans .update
  exact .trans (.ite (fun _ => .trans .update (judged _)) (fun _ => .update)) (testDoors_keepsJunction _)

theorem stopPush_keepsJunction (z : Fin 8) (p : Part) : KeepsJunction p (stopPush z p) := by
  unfold stopPush askForStop
  exact .ite (fun _ => .ite (fun _ => .update) (fun _ => .trans .update (request_keepsJunction .stop _)))
    (fun _ => .ite (fun _ => .update) (fun _ => .refl p))

theorem assistancePush_keepsJunction (z : Fin 8) (p : Part) : KeepsJunction p (assistancePush z p) :=
  (stopPush_keepsJunction z p).trans (.trans .update (request_keepsJunction .assist _))

theorem buttonStore_keepsJunction (r : SlotRecord) (p : Part) : KeepsJunction p (buttonStore r p) :=
  .ite (fun _ => .ite (fun _ => .trans .update (assistancePush_keepsJunction _ _))
    (fun _ => .ite (fun _ => .trans .update (stopPush_keepsJunction _ _)) (fun _ => .update)))
    (fun _ => .update)

/-! ### Junction unit -/

theorem appendRelease_keepsJunction {p : Part} (live : cabLive p = true) (x : Release) :
    KeepsJunction p (appendRelease x p) := by
  unfold appendRelease
  split
  · exact queue_keepsJunction live
  · exact queue_keepsJunction live

/-- A record enters FAULT with its row at 0 (R111, R112). -/
theorem enterFault_keepsJunction {p : Part} {pos : Fin 4} (live : cabLive p = true) {r : JunctionRecord}
    (others : ∀ pos' ≠ pos, ∀ r', openAt p pos' = some r' → r'.junction ≠ r.junction) (cause : JunctionFault) :
    KeepsJunction p (enterFault pos r cause p) :=
  (place_keepsJunction (r := { r with state := .fault cause, count := 0, confirmed := 0 }) live others
    fun _ => rfl).trans (request_keepsJunction .alarm _)

/-- An open record enters FAULT. -/
theorem fails_keepsJunction {p : Part} {pos : Fin 4} {r r' : JunctionRecord} (hr : openAt p pos = some r)
    (junction : r'.junction = r.junction) (cause : JunctionFault) :
    KeepsJunction p (enterFault pos r' cause p) :=
  (reopen_keepsJunction (r' := { r' with state := .fault cause, count := 0, confirmed := 0 }) hr junction
    fun _ => rfl).trans (request_keepsJunction .alarm _)

/-- A record that closes: a RELEASE is queued where its SET was sent, and the position is freed with its row
withdrawn (R123). -/
theorem closeRecord_eq (pos : Fin 4) (r : JunctionRecord) (p : Part) : closeRecord pos r p =
    withList ((released r p).junction.list.set pos none) (withdrawRow (.junction pos) (released r p)) := by
  unfold closeRecord released appendRelease releaseOf
  split
  · split
    · next h => simp [withdrawRow, h]
    · next h => simp [withdrawRow, h]; rfl
  · rfl

theorem closeRecord_keepsJunction {p : Part} (live : cabLive p = true) (pos : Fin 4) (r : JunctionRecord) :
    KeepsJunction p (closeRecord pos r p) := by
  rw [closeRecord_eq]
  refine .trans ?_ (free_keepsJunction (released r p) pos)
  unfold released
  exact .ite (fun _ => appendRelease_keepsJunction live _) (fun _ => .refl p)

theorem openFor_none {p : Part} {j : Six} (h : openFor p j = none) (pos : Fin 4) {r : JunctionRecord}
    (hr : openAt p pos = some r) : r.junction ≠ j := by
  have absent := List.find?_eq_none.mp h pos (mem_positions pos)
  simpa [hr] using absent

/-- The list overflows: the row and the condition at once (R113, R164). -/
theorem overflowList_keepsJunction {p : Part} (live : cabLive p = true) : KeepsJunction p (overflowList p) := by
  let q := setRow .overflow 0 p
  have placed : KeepsJunction p { q with sound := { q.sound with overflow := true } } := by
    refine ⟨fun ⟨present, zero, distinct, _⟩ => ⟨present, zero, distinct, fun idle => ?_⟩,
      fun _ ⟨fault, _, rest⟩ => ⟨fault, rfl, rest⟩⟩
    exact absurd (idle.symm.trans live) (by decide)
  exact placed.trans (request_keepsJunction .alarm _)

/-- A record opens for a junction that has none (R113). -/
theorem openRecord_keepsJunction {p : Part} (live : cabLive p = true) {j : Six} (hj : openFor p j = none)
    (pos : Fin 4) (e : RouteEntry) : KeepsJunction p (openRecord pos j e p) := by
  have others : ∀ pos' ≠ pos, ∀ r', openAt p pos' = some r' → r'.junction ≠ j := fun pos' _ r' hr' =>
    openFor_none hj pos' hr'
  exact .ite (fun _ => place_keepsJunction live others nofun)
    (fun _ => enterFault_keepsJunction live others .noRoute)

theorem requestMarker_keepsJunction {p : Part} (live : cabLive p = true) (j : Six) (e : RouteEntry) :
    KeepsJunction p (requestMarker j e p) := by
  unfold requestMarker
  split
  · exact .refl p
  · next hj =>
    split
    · exact overflowList_keepsJunction live
    · exact openRecord_keepsJunction live hj _ e

/-- A COMMIT marker commits the record or puts it in FAULT (R120). -/
theorem commitMarker_keepsJunction (j : Six) (p : Part) : KeepsJunction p (commitMarker j p) := by
  unfold commitMarker
  split
  · exact .update
  · split
    · exact .refl p
    · next r hr =>
      have fails : KeepsJunction p (enterFault _ { r with distance := 0 } .commitUnconfirmed p) :=
        fails_keepsJunction (r' := { r with distance := 0 }) hr rfl _
      split
      · exact putOpen_keepsJunction hr rfl nofun
      · exact .refl p
      · exact .refl p
      · exact fails
      · exact fails

theorem clearMarker_keepsJunction {p : Part} (live : cabLive p = true) (j : Six) :
    KeepsJunction p (clearMarker j p) := by
  unfold clearMarker
  split
  · exact .refl p
  · split
    · exact .refl p
    · exact closeRecord_keepsJunction live _ _

theorem newMarker_keepsJunction {p : Part} (live : cabLive p = true) (marker : Nat) :
    KeepsJunction p (newMarker marker p) := by
  unfold newMarker
  split
  · exact .update
  · refine .ite (fun _ => ?_) (fun _ => .update)
    split
    · exact requestMarker_keepsJunction live _ _
    · exact commitMarker_keepsJunction _ p
    · exact clearMarker_keepsJunction live _

theorem markersMissed_keepsJunction (p : Part) : KeepsJunction p (markersMissed p) :=
  .trans .update (request_keepsJunction .alarm _)

/-- Markers act in ACTIVE and HOLD alone (R106, R107). -/
theorem markerStore_keepsJunction (r : SlotRecord) (p : Part) : KeepsJunction p (markerStore r p) := by
  unfold markerStore
  dsimp only
  split
  · exact .update
  · refine .ite (fun _ => .update) (fun acts => ?_)
    have live : cabLive p = true := by simpa using (not_or.mp acts).2
    exact .ite (fun _ => .trans .update (newMarker_keepsJunction (by exact live) _))
      (fun _ => .trans (.trans .update (markersMissed_keepsJunction _)) (newMarker_keepsJunction (by exact live) _))

theorem selectFor_keepsJunction (p : Part) (pos : Fin 4) : KeepsJunction p (selectFor p pos) := by
  unfold selectFor
  split
  · exact .refl p
  · next r hr =>
    have reselected : ∀ code v, KeepsJunction p (setRow (.junction pos) v
        (putOpen pos { r with route := code, state := .requested, count := 0, confirmed := 0 } p)) := fun code v =>
      reopen_keepsJunction
        (r' := { r with route := code, state := .requested, count := 0, confirmed := 0 }) hr rfl nofun
    refine .ite (fun _ => .refl p) (fun _ => ?_)
    split
    · exact .update
    · exact .update
    all_goals exact .ite (fun _ => reselected _ _) (fun _ => .refl p)

theorem select_keepsJunction (x : BitVec 4) (p : Part) : KeepsJunction p (select x p) :=
  .ite (fun _ => .update) (fun _ => .trans .update (.foldl selectFor_keepsJunction _ _))

theorem reportRequested_keepsJunction {p : Part} {pos : Fin 4} {r : JunctionRecord} (hr : openAt p pos = some r)
    (hs : r.state = .requested) (x : PointReport) (route : Route) :
    KeepsJunction p (reportRequested x pos r route p) := by
  let set := confirmSettings x route.settings 0 r.confirmed
  exact .ite (fun _ => reopen_keepsJunction
      (r' := { r with state := .confirmed, count := 0, confirmed := set }) hr rfl nofun)
    (fun _ => putOpen_keepsJunction (r' := { r with confirmed := set }) hr rfl fun hf => by
      simp [inFault, hs] at hf)

/-- A report confirms a record, or puts one that had its lock in FAULT (R117, R118). -/
theorem reportAt_keepsJunction (x : PointReport) (p : Part) (pos : Fin 4) :
    KeepsJunction p (reportAt x p pos) := by
  unfold reportAt
  split
  · exact .refl p
  · next hr =>
    dsimp only
    split
    · exact .refl p
    · refine .ite (fun _ => ?_) (fun _ => .refl p)
      split
      · next hs => exact reportRequested_keepsJunction hr hs x _
      · exact .ite (fun _ => fails_keepsJunction hr rfl .lockLost) (fun _ => .refl p)
      · exact .ite (fun _ => .trans .update (request_keepsJunction .alarm _)) (fun _ => .refl p)
      · exact .refl p

theorem pointStore_keepsJunction (r : SlotRecord) (p : Part) : KeepsJunction p (pointStore r p) :=
  .ite (fun _ => .foldl (reportAt_keepsJunction _) _ p) (fun _ => .refl p)

theorem timeOut_keepsJunction (pos : Fin 4) (p : Part) : KeepsJunction p (timeOut pos p) := by
  unfold timeOut
  split
  · next hr => exact fails_keepsJunction hr rfl .timeout
  · exact .refl p

theorem countRequest_keepsJunction (p : Part) (pos : Fin 4) : KeepsJunction p (countRequest p pos) := by
  unfold countRequest
  split
  · next hr =>
    have counted := fun n => putOpen_keepsJunction (r' := { (‹JunctionRecord›) with count := n }) hr rfl id
    exact .ite (fun _ => .ite (fun _ => (counted _).trans (timeOut_keepsJunction _ _)) (fun _ => counted _))
      (fun _ => .refl p)
  · exact .refl p

/-- A record that has counted its distance closes (R121). -/
theorem addDistance_keepsJunction (delta : Nat) (p : Part) (pos : Fin 4) :
    KeepsJunction p (addDistance delta p pos) := by
  unfold addDistance
  split
  · next r hr =>
    have added := putOpen_keepsJunction (r' := { r with distance := min 65535 (r.distance + delta) }) hr rfl id
    exact .of_ok fun h => .ite
      (fun _ => .ite (fun _ => added.trans (closeRecord_keepsJunction (by exact h.live hr) _ _)) (fun _ => added))
      (fun _ => .refl p)
  · exact .refl p

theorem takeDistance_keepsJunction (delta : Nat) (p : Part) : KeepsJunction p (takeDistance delta p) :=
  .ite (fun _ => .refl p) (fun _ => .foldl (addDistance_keepsJunction delta) _ p)

/-- The OVERFLOW row and its condition go together (R114, R164). -/
theorem junctionAck_keepsJunction (p : Part) : KeepsJunction p (junctionAck p) := by
  refine .ite (fun live => ?_) (fun _ => .refl p)
  refine ⟨fun ⟨present, zero, distinct, _⟩ => ⟨present, zero, distinct, fun idle => ?_⟩,
    fun _ ⟨fault, overflow, rest⟩ => ⟨fault, ?_, rest⟩⟩
  · exact absurd (idle.symm.trans live) (by decide)
  · show (if p.caps.overflow.isSome = true then false else p.sound.overflow) = false
    rw [overflow]
    cases p.caps.overflow.isSome <;> rfl

theorem junctionCycle_keepsJunction (p : Part) : KeepsJunction p (junctionCycle p) := by
  have acknowledged : KeepsJunction p (sampleJunctionAck p) :=
    .ite (fun _ => .trans .update (junctionAck_keepsJunction _)) (fun _ => .update)
  have selected : KeepsJunction p (testSelection (sampleJunctionAck p)) :=
    acknowledged.trans (.ite (fun _ => select_keepsJunction 0 _) (fun _ => .refl _))
  exact selected.trans (.foldl countRequest_keepsJunction _ _)

/-- The arbiter marks a SET sent, or takes a RELEASE from the queue of a live cab (R125). -/
theorem nextItem_keepsJunction (p : Part) : KeepsJunction p (nextItem p).1 := by
  unfold nextItem giveSet
  split
  · next hq =>
    refine .of_ok fun h => queue_keepsJunction ?_
    by_contra idle
    simp [h.queue_idle (Bool.eq_false_iff.mpr idle)] at hq
  · split
    · split
      · exact .refl p
      · next r hr => exact .trans (putOpen_keepsJunction (r' := { r with setSent := true }) hr rfl id) .update
    · exact .refl p

/-! ### Traction unit -/

theorem speedStore_keepsJunction (r : SlotRecord) (p : Part) : KeepsJunction p (speedStore r p) :=
  .trans .update (takeDistance_keepsJunction _ _)

theorem speedGoesStale_keepsJunction (p : Part) : KeepsJunction p (speedGoesStale p) :=
  .trans .update (.ite (fun _ => .update) (fun _ => .refl _))

theorem updateLock_keepsJunction (p : Part) : KeepsJunction p (updateLock p) :=
  .ite (fun _ => .ite (fun _ => .refl p) (fun _ => speedGoesStale_keepsJunction p))
    (fun _ => .ite (fun _ => .ite (fun _ => .update) (fun _ => .update)) (fun _ => .update))

theorem tractionInputs_keepsJunction (cs : CycleStart) (p : Part) : KeepsJunction p (tractionInputs cs p) := by
  have input : ∀ q, KeepsJunction q (speedInput q) := fun q =>
    .ite (fun _ => .refl q) (fun _ => .trans (.ite (fun _ => .update) (fun _ => .refl q))
      (updateLock_keepsJunction _))
  exact .ite (fun _ => .update) (fun _ => .trans .update (input _))

/-- The envelope's condition follows the envelope alarm, in ACTIVE (R91, R101). -/
theorem judgeEnvelope_keepsJunction (p : Part) : KeepsJunction p (judgeEnvelope p) := by
  refine .ite (fun active => ?_) (fun _ => .refl p)
  refine ⟨fun h => h.congr rfl rfl rfl rfl id, fun _ ⟨fault, overflow, forced, envelope, _⟩ =>
    ⟨fault, overflow, forced, ?_, fun inactive => absurd active inactive⟩⟩
  show (if (!p.tables.envelopeValid) = p.traction.envelopeAlarm then p.sound.envelope
    else !p.tables.envelopeValid) = !p.tables.envelopeValid
  split
  · next same => rw [envelope, same]
  · rfl

/-- The forced condition follows the episode (R96). -/
theorem endEpisode_keepsJunction (p : Part) : KeepsJunction p (endEpisode p) := by
  refine ⟨fun h => h.congr rfl rfl rfl rfl id, fun _ ⟨fault, overflow, forced, envelope, active⟩ =>
    ⟨fault, overflow, ?_, envelope, fun inactive => ⟨rfl, (active inactive).2⟩⟩⟩
  show (if p.traction.episode = true then false else p.sound.forced) = false
  rw [forced]
  cases p.traction.episode <;> rfl

theorem judgeEpisode_keepsJunction (p : Part) : KeepsJunction p (judgeEpisode p) := by
  refine .ite (fun active => .ite (fun _ => endEpisode_keepsJunction p)
    (fun _ => .ite (fun _ => ?_) (fun _ => .refl p))) (fun _ => .refl p)
  let q := setFlag .overspeed p
  have begun : KeepsJunction p { q with
      traction := { q.traction with episode := true }, sound := { q.sound with forced := true } } :=
    ⟨fun h => h.congr rfl rfl rfl rfl id, fun _ ⟨fault, overflow, _, envelope, _⟩ =>
      ⟨fault, overflow, rfl, envelope, fun inactive => absurd active inactive⟩⟩
  exact begun.trans (request_keepsJunction .alarm _)

theorem evaluate_keepsJunction (p : Part) : KeepsJunction p (evaluate p) := by
  have judged : KeepsJunction p (judgeInputs p) := .update
  have finished : ∀ q, KeepsJunction q (finish q) := fun _ => .update
  exact ((judged.trans (judgeEnvelope_keepsJunction _)).trans (judgeEpisode_keepsJunction _)).trans (finished _)

/-- With the end of a drive the episode and the envelope alarm end (R91, R96). -/
theorem endAlarms_keepsJunction (p : Part) : KeepsJunction p (endAlarms p) := by
  refine (endEpisode_keepsJunction p).trans ⟨fun h => h.congr rfl rfl rfl rfl id,
    fun _ ⟨fault, overflow, forced, envelope, _⟩ => ⟨fault, overflow, forced, ?_, fun _ => ⟨rfl, rfl⟩⟩⟩
  show (if (endEpisode p).traction.envelopeAlarm = true then false else (endEpisode p).sound.envelope) = false
  rw [envelope]
  cases (endEpisode p).traction.envelopeAlarm <;> rfl

theorem tractionResumes_keepsJunction (p : Part) : KeepsJunction p (tractionResumes p) := by
  unfold tractionResumes
  split
  · exact .refl p
  · exact .update

/-! ### Cab authority -/

/-- An activation begins outside a drive (R49, R65). -/
theorem beginActivation_keepsJunction {p : Part} (idle : cabLive p = false) (n : Nat) :
    KeepsJunction p (beginActivation n p) := by
  refine .trans (.update (live := fun _ => idle) (active := fun _ => .inl (not_active_of_not_live idle)))
    (.trans (.ite (fun _ => .refl _) (fun _ => .update)) (evaluate_keepsJunction _))

theorem attemptIfDue_keepsJunction (p : Part) : KeepsJunction p (attemptIfDue p) := by
  refine .ite (fun due => ?_) (fun _ => .refl p)
  obtain ⟨inactive, -, -⟩ := (attemptIsDue_iff p).mp due
  exact .ite (fun _ => beginActivation_keepsJunction (by simp [cabLive, inactive]) _) (fun _ => .update)

theorem attempt_keepsJunction {p : Part} (due : attemptIsDue p = true) : KeepsJunction p (attempt p) := by
  simpa only [attemptIfDue, due, if_true] using attemptIfDue_keepsJunction p

/-- STABLED is left for INACTIVE or for ACTIVATING (R65). -/
theorem leaveStabledIfDue_keepsJunction (p : Part) : KeepsJunction p (leaveStabledIfDue p) := by
  refine .ite (fun due => ?_) (fun _ => .refl p)
  simp only [stabledExitIsDue, Bool.and_eq_true, beq_iff_eq] at due
  obtain ⟨⟨stabled, -⟩, -⟩ := due
  have idle : cabLive p = false := by simp [cabLive, stabled]
  exact .ite (fun _ => .ite (fun _ => beginActivation_keepsJunction idle _)
      (fun _ => .update (live := fun _ => idle) (active := fun _ => .inl (not_active_of_not_live idle))))
    (fun _ => .update (live := fun _ => idle) (active := fun _ => .inl (not_active_of_not_live idle)))

theorem leaveStabled_keepsJunction {p : Part} (due : stabledExitIsDue p = true) :
    KeepsJunction p (leaveStabled p) := by
  simpa only [leaveStabledIfDue, due, if_true] using leaveStabledIfDue_keepsJunction p

theorem live_of_drive {p : Part} (h : p.cab.state = .active ∨ p.cab.state = .hold) : cabLive p ≠ false := by
  rcases h with h | h <;> simp [cabLive, h]

/-- HOLD is entered with the alarms of ACTIVE ended (R60, R102). -/
theorem enterHold_keepsJunction (p : Part) : KeepsJunction p (enterHold p) := by
  refine .trans (.trans (endAlarms_keepsJunction p) ?_) (withdrawSource_keepsJunction .driverBell _)
  exact .update (live := fun idle => absurd idle (live_of_drive (.inr rfl))) (active := fun _ => .inr ⟨rfl, rfl⟩)

theorem takeExit_keepsJunction (p : Part) : KeepsJunction p (takeExit p) := by
  unfold takeExit
  split
  · exact enterHold_keepsJunction p
  · exact teardown_keepsJunction p
  all_goals exact .refl p

theorem presentEvaluation_keepsJunction (p : Part) : KeepsJunction p (presentEvaluation p) :=
  .ite (fun _ => takeExit_keepsJunction p) (fun _ => .refl p)

theorem keyLeavesDrive_keepsJunction (x : PendingExit) (p : Part) : KeepsJunction p (keyLeavesDrive x p) :=
  .ite (fun _ => .ite (fun _ => .trans .update (takeExit_keepsJunction _)) (fun _ => .update))
    (fun _ => .update)

/-- From HOLD the drive goes on (R61). -/
theorem returnFromHold_keepsJunction (p : Part) : KeepsJunction p (returnFromHold p) :=
  .trans (.update (live := fun idle => absurd idle (live_of_drive (.inl rfl)))
    (active := fun h => absurd rfl h)) (tractionResumes_keepsJunction _)

theorem keyRecognised_keepsJunction (k : Key) (p : Part) : KeepsJunction p (keyRecognised k p) := by
  unfold keyRecognised
  split
  · exact .trans .update (attemptIfDue_keepsJunction _)
  · next activating => exact .ite (fun _ => .refl p) (fun _ => activationEnds_keepsJunction activating)
  · exact .ite (fun _ => .ite (fun _ => .refl p) (fun _ => .update))
      (fun _ => keyLeavesDrive_keepsJunction _ p)
  · split
    · exact returnFromHold_keepsJunction p
    · exact teardown_keepsJunction p
    · exact .refl p
  · exact .ite (fun _ => .trans .update (leaveStabledIfDue_keepsJunction _))
      (fun _ => .ite (fun _ => .update) (fun _ => .refl p))

theorem deskCycle_keepsJunction (p : Part) : KeepsJunction p (deskCycle p) :=
  .ite (fun _ => .trans .update (keyRecognised_keepsJunction _ _)) (fun _ => .update)

theorem conflictInActive_keepsJunction (v : CabState) (p : Part) : KeepsJunction p (conflictInActive v p) :=
  .ite (fun _ => .refl p) (fun _ => .trans .update (request_keepsJunction .alarm _))

theorem viewChanged_keepsJunction (v : CabState) (p : Part) : KeepsJunction p (viewChanged v p) := by
  unfold viewChanged
  split
  · next activating =>
    split
    · exact activationYields_keepsJunction activating
    · exact activationYields_keepsJunction activating
    · exact .ite (fun _ => activationYields_keepsJunction activating) (fun _ => .refl p)
    · exact .refl p
    · exact .refl p
  · exact conflictInActive_keepsJunction v p
  · exact .ite (fun _ => .refl p) (fun _ => .update)
  · exact .refl p
  · exact .refl p

theorem takeView_keepsJunction (v : CabState) (p : Part) : KeepsJunction p (takeView v p) :=
  .ite (fun _ => .refl p) (fun _ => .trans .update (viewChanged_keepsJunction _ _))

/-- ACTIVE is entered with nothing open and no alarm (R54). -/
theorem enterActive_keepsJunction (p : Part) : KeepsJunction p (enterActive p) := by
  have entered : KeepsJunction p (activated p) :=
    .update (live := fun idle => absurd idle (live_of_drive (.inl rfl)))
    (active := fun h => absurd rfl h)
  have requested : KeepsJunction p (warned p) :=
    .ite (fun _ => entered.trans (request_keepsJunction .depart _)) (fun _ => entered)
  rw [enterActive_eq]
  exact requested.trans (.trans .update (conflictInActive_keepsJunction _ _))

theorem checkTable_keepsJunction {p : Part} (hs : p.cab.state = .activating) (t : TableId) :
    KeepsJunction p (checkTable t p) := by
  unfold checkTable
  refine .ite (fun _ => activationFails_keepsJunction hs _ _ _)
    (fun _ => .ite (fun _ => activationFails_keepsJunction hs _ _ _) (fun _ => ?_))
  split <;> exact .update

theorem stageCycle_keepsJunction {p : Part} (hs : p.cab.state = .activating) :
    KeepsJunction p (stageCycle p) := by
  have counted : KeepsJunction p (countStage p) := .update
  unfold stageCycle
  split
  · exact .refl p
  · exact .ite (fun _ => .update) (fun _ => counted)
  · split
    · exact checkTable_keepsJunction hs _
    · exact .refl p
  · exact .ite (fun _ => counted.trans (activationFails_keepsJunction (p := countStage p) hs _ _ _))
      (fun _ => counted)
  · exact .ite (fun _ => .ite (fun _ => counted.trans (enterActive_keepsJunction _)) (fun _ => counted))
      (fun _ => .update)

theorem tableChanged_keepsJunction (t : TableId) (p : Part) : KeepsJunction p (tableChanged t p) :=
  .ite (fun h => activationFails_keepsJunction h.1 _ _ _) (fun _ => .refl p)

theorem presentLoss_keepsJunction (x : Option LossChange) (p : Part) : KeepsJunction p (presentLoss x p) := by
  unfold presentLoss
  split
  · exact .refl p
  · exact .ite (fun activating => activationFails_keepsJunction activating _ _ _) (fun _ => .refl p)
  · exact (attemptIfDue_keepsJunction p).trans (leaveStabledIfDue_keepsJunction _)

theorem scrubTable_keepsJunction (t : TableId) (p : Part) : KeepsJunction p (scrubTable t p) := .update

theorem scrubCycle_keepsJunction (p : Part) : KeepsJunction p (scrubCycle p) := by
  unfold scrubCycle
  refine .ite (fun _ => ?_) (fun _ => .refl p)
  dsimp only
  split
  · exact .trans .update ((scrubTable_keepsJunction _ _).trans (leaveStabledIfDue_keepsJunction _))
  · exact .ite (fun _ => .trans .update (scrubTable_keepsJunction _ _)) (fun _ => .update)

end Sys2Proof.Machine
end

section
/-! ## What the blocks of the part can do in one command

The line interface, the slot engine, the tables and the management interface act on the other blocks only
through the operations that `BlockAct` lists, each under the condition that it is taken under. `exec_acts` says
that every command is a chain of them, so a relation between parts that each operation meets is met by a step. -/

namespace Sys2Proof.Machine

set_option Elab.async false

/-- The cab authority, the cap table and the traction, junction, stop and sound units stand. -/
structure UnitsStand (p q : Part) : Prop where
  cab : q.cab = p.cab := by rfl
  caps : q.caps = p.caps := by rfl
  traction : q.traction = p.traction := by rfl
  junction : q.junction = p.junction := by rfl
  stop : q.stop = p.stop := by rfl
  sound : q.sound = p.sound := by rfl

/-- The six blocks are in their reset state, with the limit of the line that PARAM gives (R76, R193). -/
structure UnitsReset (q : Part) : Prop where
  cab : ∃ e, q.cab = CabAuthority.reset e
  caps : ∃ n, q.caps = CapTable.reset n
  traction : q.traction = Traction.reset
  junction : q.junction = JunctionUnit.reset
  stop : q.stop = StopUnit.reset
  sound : q.sound = Sound.reset

/-- One operation of the cab authority, the cap table or one of the four units, or a change outside them. -/
inductive BlockAct : Part → Part → Prop
  | stands {p q : Part} (h : UnitsStand p q) : BlockAct p q
  | reset {q : Part} (p : Part) (h : UnitsReset q) : BlockAct p q
  -- the line and the cycle start (R9, R18)
  | ageing (p : Part) : BlockAct p (ageAll p)
  | loss (x : Option LossChange) (p : Part) : BlockAct p (presentLoss x p)
  | desk (p : Part) : BlockAct p (deskCycle p)
  | stage {p : Part} (h : p.cab.state = .activating) : BlockAct p (stageCycle p)
  | scrub (p : Part) : BlockAct p (scrubCycle p)
  | tractionInputs (cs : CycleStart) (p : Part) : BlockAct p (tractionInputs cs p)
  | evaluation (p : Part) : BlockAct p (evaluate p)
  | evaluated (p : Part) : BlockAct p (presentEvaluation p)
  | junctionCycle (p : Part) : BlockAct p (junctionCycle p)
  | doorTest (p : Part) : BlockAct p (testDoors p)
  | soundCycle (p : Part) : BlockAct p (soundCycle p)
  -- stores (R32) and what an opening takes (R125)
  | brakeTest (r : SlotRecord) (p : Part) : BlockAct p (brakeTestStore r p)
  | speed (r : SlotRecord) (p : Part) : BlockAct p (speedStore r p)
  | marker (r : SlotRecord) (p : Part) : BlockAct p (markerStore r p)
  | selection (i : Fin 82) (r : SlotRecord) (p : Part) : BlockAct p (routeSelectStore i r p)
  | point (r : SlotRecord) (p : Part) : BlockAct p (pointStore r p)
  | button (r : SlotRecord) (p : Part) : BlockAct p (buttonStore r p)
  | door (i : Fin 82) (r : SlotRecord) (p : Part) : BlockAct p (doorStore i r p)
  | view (v : CabState) (p : Part) : BlockAct p (takeView v p)
  | item (p : Part) : BlockAct p (nextItem p).1
  -- the table store and the management interface (R52, R63, R65, R74, R77)
  | lineLimit (n : Nat) (p : Part) : BlockAct p (setRow .line n p)
  | table (t : TableId) (p : Part) : BlockAct p (tableChanged t p)
  | restrict (n : Nat) (p : Part) : BlockAct p (setRow .restrict n p)
  | unrestrict (p : Part) : BlockAct p (withdrawRow .restrict p)
  | stabled {p : Part} (h : p.cab.state = .inactive) : BlockAct p (enterStabled p)
  | wake (p : Part) : BlockAct p (leaveStabledIfDue { p with cab := { p.cab with pending := .wake } })
  -- events inside the blocks, where their conditions hold
  | attempt {p : Part} (h : attemptIsDue p = true) : BlockAct p (attempt p)
  | settled {p : Part} (h : settleIsOver p = true) : BlockAct p (settleEnds p)
  | brakeTimeout {p : Part} (h : brakeTestIsOver p = true) : BlockAct p (brakeTestFails p)
  | entry {p : Part} (h : speedLockStageIsOver p = true) : BlockAct p (enterActive p)
  | exit {p : Part} (h : exitIsDue p = true) : BlockAct p (takeExit p)
  | scrubPass {p : Part} (h : scrubIsDue p = true) : BlockAct p (beginScrub p)
  | stabledExit {p : Part} (h : stabledExitIsDue p = true) : BlockAct p (leaveStabled p)
  | speedStale {p : Part} (h : speedLockIsLost p = true) : BlockAct p (speedGoesStale p)
  | speedLock {p : Part} (h : speedLockIsDue p = true) : BlockAct p (speedLocks p)
  | selectionStale {p : Part} (h : selectionIsStale p = true) : BlockAct p (select 0 p)
  | requestTimeout {p : Part} {pos : Fin 4} (h : requestIsDue p pos = true) : BlockAct p (timeOut pos p)
  | doorStale {p : Part} (h : doorIsStale p = true) : BlockAct p (setRow .doors 0 p)
  | phaseEnd {p : Part} {ch : Channel} (h : channelPhaseIsOver ch p = true) : BlockAct p (endChannelPhase ch p)
  | stepEnd {p : Part} {ch : Channel} (h : channelStepIsOver ch p = true) : BlockAct p (endChannelStep ch p)
  | hornDone {p : Part} (h : hornIsDone p = true) : BlockAct p (endHorn p)
  | hornStuck {p : Part} (h : hornIsStuck p = true) : BlockAct p (cutHorn p)

/-- A chain of operations of the blocks. -/
def BlockActs (p q : Part) : Prop := Relation.ReflTransGen BlockAct p q

namespace BlockActs

theorem refl (p : Part) : BlockActs p p := Relation.ReflTransGen.refl

theorem trans {p q r : Part} (a : BlockActs p q) (b : BlockActs q r) : BlockActs p r :=
  Relation.ReflTransGen.trans a b

theorem of {p q : Part} (h : BlockAct p q) : BlockActs p q := .single h

/-- An update outside the six blocks. -/
theorem update {p q : Part} (h : UnitsStand p q := by exact {}) : BlockActs p q := .of (.stands h)

theorem ite {p a b : Part} {c : Prop} [Decidable c] (ha : c → BlockActs p a) (hb : ¬ c → BlockActs p b) :
    BlockActs p (if c then a else b) := by
  split
  · next h => exact ha h
  · next h => exact hb h

/-- A reflexive and transitive relation that each operation meets holds along a chain. -/
theorem lift {R : Part → Part → Prop} (refl : ∀ p, R p p) (trans : ∀ {p q r}, R p q → R q r → R p r)
    (act : ∀ {p q}, BlockAct p q → R p q) {p q : Part} (h : BlockActs p q) : R p q := by
  induction h with
  | refl => exact refl p
  | tail _ last ih => exact trans ih (act last)

end BlockActs

/-! ### The table store (R168, R177) -/

theorem respond_acts (tag code : Byte) (x : Result) (ws : List Word) (p : Part) :
    BlockActs p (respond tag code x ws p) :=
  .update { cab := by simp, caps := by simp, traction := by simp, junction := by simp, stop := by simp,
            sound := by simp }

theorem presentChange_acts (t : TableId) (i : Nat) (p : Part) : BlockActs p (presentChange t i p) := by
  cases t with
  | slot =>
    unfold presentChange clearEntryRecord
    dsimp only
    split
    · exact .update
    · exact .refl p
  | param => exact .trans (.trans (.of (.lineLimit _ p)) .update) (.of (.doorTest _))
  | envelope => exact .update
  | cadence => exact .refl p
  | marker => exact .refl p
  | route => exact .refl p

theorem commit_acts (t : TableId) (i : Nat) (ws : List Word) (p : Part) : BlockActs p (commit t i ws p) := by
  have stored : BlockActs p
      { p with tables := putTable p.tables t (committed t i ws (tableAt p.tables t)) } := .update
  exact (stored.trans (presentChange_acts t i _)).trans (.of (.table t _))

theorem completeTransfer_acts (p : Part) : BlockActs p (completeTransfer p) := by
  have one : ∀ x q, BlockActs q (completeOne x q) := fun x q => by
    unfold completeOne
    split
    · exact respond_acts _ _ _ _ q
    · exact (commit_acts _ _ _ q).trans (respond_acts _ _ _ _ _)
  unfold completeTransfer
  split
  · exact .refl p
  · exact (one _ p).trans .update

theorem takeValue_acts (v : Word) (p : Part) : BlockActs p (takeValue v p) := by
  unfold takeValue
  dsimp only
  split
  · exact .update
  · exact .update
  · exact (commit_acts _ _ _ p).trans .update

theorem takeValues_acts (vs : List Word) (p : Part) : BlockActs p (takeValues vs p) := by
  unfold takeValues
  induction vs generalizing p with
  | nil => exact .refl p
  | cons v vs ih => exact (takeValue_acts v p).trans (ih _)

/-! ### The management commands (chapter 10) -/

theorem accept_acts (tag code : Byte) {take : Part → Part} (h : ∀ p, BlockActs p (take p)) (p : Part) :
    BlockActs p (accept tag code take p) := by
  rcases accept_cases tag code take p with ⟨-, e⟩ | ⟨-, -, e⟩ | ⟨-, -, e⟩ <;> rw [e]
  · exact .refl p
  · exact h p
  · exact .trans .update (respond_acts _ _ _ _ _)

theorem acceptLock_acts (tag code : Byte) {take : Part → Part} (h : ∀ p, BlockActs p (take p)) (p : Part) :
    BlockActs p (acceptLock tag code take p) := by
  rcases acceptLock_cases tag code take p with ⟨-, e⟩ | ⟨-, -, e⟩ | ⟨-, -, e⟩ <;> rw [e]
  · exact .refl p
  · exact .trans .update (h (disarm p))
  · exact .trans .update (respond_acts _ _ _ _ _)

theorem statusCommand_acts (tag : Byte) (page : Word) (p : Part) : BlockActs p (statusCommand tag page p) := by
  unfold statusCommand
  split <;> exact respond_acts _ _ _ _ p

theorem clearStatusCommand_acts (tag : Byte) (p : Part) : BlockActs p (clearStatusCommand tag p) :=
  .trans .update (respond_acts _ _ _ _ _)

theorem writeStage_acts (tag : Byte) (offset count : Nat) (ws : List Word) (p : Part) :
    BlockActs p (writeStage tag offset count ws p) := by
  have taken : BlockActs p (if count < 1 ∨ 5 < count ∨ 24 < offset + count then respond tag 3 .range [] p
      else respond tag 3 .ok [] { p with tables := { p.tables with
        front := overwrite p.tables.front offset (padTo count ws) } }) :=
    .ite (fun _ => respond_acts _ _ _ _ p) (fun _ => .trans .update (respond_acts _ _ _ _ _))
  unfold writeStage
  split
  · exact respond_acts _ _ _ _ p
  · exact taken
  · exact taken

theorem transfer_acts (tag : Byte) (table index : Word) (p : Part) :
    BlockActs p (transfer tag table index p) := by
  unfold transfer stageTransfer
  split
  · exact respond_acts _ _ _ _ p
  · split
    · exact respond_acts _ _ _ _ p
    · split
      · exact .update
      · exact .update
      · exact respond_acts _ _ _ _ p

theorem readEntryCommand_acts (tag : Byte) (table index offset : Word) (p : Part) :
    BlockActs p (readEntryCommand tag table index offset p) := by
  unfold readEntryCommand
  split
  · exact respond_acts _ _ _ _ p
  · exact .ite (fun _ => respond_acts _ _ _ _ p) (fun _ => respond_acts _ _ _ _ p)

theorem envelopePointer_acts (tag : Byte) (breakpoint : Word) (p : Part) :
    BlockActs p (envelopePointer tag breakpoint p) := by
  unfold envelopePointer
  split
  · exact .trans .update (respond_acts _ _ _ _ _)
  · exact respond_acts _ _ _ _ p

theorem envelopeData_acts (tag : Byte) (count : Nat) (values : List Word) (p : Part) :
    BlockActs p (envelopeData tag count values p) := by
  unfold envelopeData
  split
  · exact respond_acts _ _ _ _ p
  · exact .ite (fun _ => respond_acts _ _ _ _ p)
      (fun _ => (takeValues_acts _ p).trans (respond_acts _ _ _ _ _))

theorem lockSetupCommand_acts (tag : Byte) (p : Part) : BlockActs p (lockSetupCommand tag p) :=
  .trans .update (respond_acts _ _ _ _ _)

theorem lockCommand_acts {act : TableId → Part → Part × Result} (h : ∀ t p, BlockActs p (act t p).1)
    (tag code : Byte) (table : Word) (p : Part) : BlockActs p (lockCommand act tag code table p) := by
  unfold lockCommand
  split
  · exact respond_acts _ _ _ _ p
  · exact (h _ p).trans (respond_acts _ _ _ _ _)

theorem lockTable_acts (t : TableId) (p : Part) : BlockActs p (lockTable t p).1 := by
  unfold lockTable
  split
  · exact .update
  · exact .update
  · exact .refl p

theorem unlockTable_acts (t : TableId) (p : Part) : BlockActs p (unlockTable t p).1 := by
  unfold unlockTable
  split
  · exact .refl p
  · split
    · exact .refl p
    · exact .update
  · split
    · exact .refl p
    · split
      · exact .refl p
      · exact .update

theorem lockDownTable_acts (t : TableId) (p : Part) : BlockActs p (lockDownTable t p).1 := .update

theorem setRestrictionCommand_acts (tag : Byte) (action value : Word) (p : Part) :
    BlockActs p (setRestrictionCommand tag action value p) :=
  .ite (fun _ => .trans (.of (.restrict _ p)) (respond_acts _ _ _ _ _))
    (fun _ => .ite (fun _ => .trans (.of (.unrestrict p)) (respond_acts _ _ _ _ _))
      (fun _ => respond_acts _ _ _ _ p))

theorem readRecordCommand_acts (tag : Byte) (index page : Word) (p : Part) :
    BlockActs p (readRecordCommand tag index page p) := by
  unfold readRecordCommand
  split
  · dsimp only
    split
    · exact .trans .update (respond_acts _ _ _ _ _)
    · exact respond_acts _ _ _ _ p
  · exact respond_acts _ _ _ _ p

theorem stableCommand_acts (tag : Byte) (p : Part) : BlockActs p (stableCommand tag p) :=
  .ite (fun inactive => .ite (fun _ => respond_acts _ _ _ _ p)
    (fun _ => .trans (.of (.stabled inactive)) (respond_acts _ _ _ _ _))) (fun _ => respond_acts _ _ _ _ p)

theorem wakeCommand_acts (tag : Byte) (p : Part) : BlockActs p (wakeCommand tag p) :=
  .ite (fun _ => .trans (.of (.wake p)) (respond_acts _ _ _ _ _)) (fun _ => respond_acts _ _ _ _ p)

theorem restartCommand_acts (tag : Byte) (lines : Lines) (p : Part) :
    BlockActs p (restartCommand tag lines p) := by
  have restarted : BlockActs p (respond tag 16 .ok [] (restart (withLines lines p))) :=
    .trans (.of (.reset p ⟨⟨_, rfl⟩, ⟨_, rfl⟩, rfl, rfl, rfl, rfl⟩)) (respond_acts _ _ _ _ _)
  unfold restartCommand
  split
  · exact restarted
  · exact restarted
  all_goals exact respond_acts _ _ _ _ p

theorem unknownCommand_acts (tag code : Byte) (p : Part) : BlockActs p (unknownCommand tag code p) :=
  respond_acts _ _ _ _ p

theorem acceptCommand_acts (tag code : Byte) (ws : List Word) (p : Part) :
    BlockActs p (acceptCommand tag code ws p) := by
  unfold acceptCommand
  dsimp only
  split
  · exact accept_acts _ _ (statusCommand_acts _ _) p
  · exact accept_acts _ _ (clearStatusCommand_acts _) p
  · exact accept_acts _ _ (writeStage_acts _ _ _ _) p
  · exact accept_acts _ _ (transfer_acts _ _ _) p
  · exact accept_acts _ _ (readEntryCommand_acts _ _ _ _) p
  · exact accept_acts _ _ (envelopePointer_acts _ _) p
  · exact accept_acts _ _ (envelopeData_acts _ _ _) p
  · exact accept_acts _ _ (lockSetupCommand_acts _) p
  · exact acceptLock_acts _ _ (lockCommand_acts lockTable_acts _ _ _) p
  · exact acceptLock_acts _ _ (lockCommand_acts unlockTable_acts _ _ _) p
  · exact acceptLock_acts _ _ (lockCommand_acts lockDownTable_acts _ _ _) p
  · exact accept_acts _ _ (setRestrictionCommand_acts _ _ _) p
  · exact accept_acts _ _ (readRecordCommand_acts _ _ _) p
  · exact accept_acts _ _ (stableCommand_acts _) p
  · exact accept_acts _ _ (wakeCommand_acts _) p
  · exact accept_acts _ _ (restartCommand_acts _ _) p
  · exact accept_acts _ _ (unknownCommand_acts _ _) p

/-! ### Cells and openings (chapter 2) -/

theorem deliver_acts (index : Fin 82) (fn : Fn) (kind : Kind) (r : SlotRecord) (p : Part) :
    BlockActs p (deliver index fn kind r p) := by
  cases fn with
  | handle => exact .trans (.update (q := handleRange r p)) (.of (.brakeTest r _))
  | speed => exact .of (.speed r p)
  | marker => exact .of (.marker r p)
  | routeSelect => exact .of (.selection index r p)
  | pointStatus => exact .of (.point r p)
  | stopButton => exact .of (.button r p)
  | doorStatus => exact .of (.door index r p)
  | otherCab => exact .of (.view _ p)
  | mgmtIn => exact .ite (fun _ => acceptCommand_acts _ _ _ p) (fun _ => .refl p)
  | _ => exact .refl p

theorem storeCell_acts (g : Governing) (lane : Lane) (c : Cell) (p : Part) :
    BlockActs p (storeCell g lane c p) :=
  .trans .update (deliver_acts _ _ _ _ _)

theorem observeCell_acts (g : Governing) (lane : Lane) (c : Cell) (p : Part) :
    BlockActs p (observeCell g lane c p) := by
  unfold observeCell pairCell
  split
  · exact .refl p
  · dsimp only
    split
    · exact .ite (fun _ => .update) (fun _ => .trans .update (storeCell_acts g lane c _))
    · exact .ite (fun _ => .refl p) (fun _ => .update)
  · exact .ite (fun _ => storeCell_acts g lane c p) (fun _ => .refl p)
  · exact .ite (fun _ => storeCell_acts g lane c p) (fun _ => .refl p)

theorem disposeCell_acts (g : Governing) (lane : Lane) (words : List Word) (c : Cell) (valid : Bool)
    (p : Part) : BlockActs p (disposeCell g lane words c valid p).1 := by
  have outcome : ∀ o, BlockActs p (setOutcome g lane o p) := fun _ => .update
  have observed := (outcome .valid).trans (observeCell_acts g lane c _)
  cases h : appliedDisposition p.cab.state g.entry with
  | pass => simpa only [disposeCell_pass _ _ _ _ h] using outcome _
  | observe =>
    rw [disposeCell_observe _ _ _ _ h]
    exact .ite (fun _ => observed) (fun _ => outcome _)
  | take =>
    cases valid with
    | false => simpa only [disposeCell_replaced _ _ _ (.inl h)] using outcome _
    | true =>
      cases ha : addressed c p with
      | false => simpa only [disposeCell_take_other _ _ _ h ha] using outcome _
      | true => simpa only [disposeCell_take_addressed _ _ _ h ha] using observed
  | rewrite =>
    cases valid with
    | false => simpa only [disposeCell_replaced _ _ _ (.inr h)] using outcome _
    | true => simpa only [disposeCell_rewrite _ _ _ h] using observed
  | own =>
    rw [disposeCell_own _ _ _ _ h]
    exact .update

theorem handOver_acts (lane : Lane) (words : List Word) (c : Cell) (valid : Bool) (p : Part) :
    BlockActs p (handOver lane words c valid p).1 := by
  unfold handOver
  split
  · exact disposeCell_acts _ lane words c valid p
  · exact .refl p

theorem drive_acts (l : Lane) (cell : List Word) (p : Part) : BlockActs p (drive l cell p) := by
  cases l <;> exact .update

theorem standing_acts (g : Governing) (content : List Word) (p : Part) :
    BlockActs p (standing g content p).1 := by
  unfold standing
  dsimp only
  split
  · exact .refl p
  · exact .update

theorem itemSent_acts (g : Governing) {p : Part} {x : Part × Option (List Word)} (h : BlockActs p x.1) :
    BlockActs p (itemSent g x).1 := by
  unfold itemSent
  split
  · exact h.trans .update
  · exact h

theorem takeResponse_acts (p : Part) : BlockActs p (takeResponse p).1 := by
  unfold takeResponse
  split
  · exact .update
  · exact .refl p

theorem emission_acts (g : Governing) (p : Part) : BlockActs p (emission g p).1 := by
  unfold emission
  split
  · exact .refl p
  · split
    · exact standing_acts g _ p
    · exact standing_acts g _ p
    · exact standing_acts g _ p
    · exact standing_acts g _ p
    · exact standing_acts g _ p
    · exact itemSent_acts g (.of (.item p))
    · exact itemSent_acts g (takeResponse_acts p)
    all_goals exact .refl p

theorem openSlot_acts (slot : Six) (p : Part) : BlockActs p (openSlot slot p) := by
  have opened : ∀ g, BlockActs p (newOpening slot g p) := fun _ => .update
  have driven : ∀ l cell q, BlockActs q (driveIfUp l cell q) := fun l cell q =>
    .ite (fun _ => drive_acts l cell q) (fun _ => .refl q)
  have emitted : ∀ g q, BlockActs q (emitOwned slot g q) := fun g q =>
    .ite (fun _ => .refl q) (fun _ => ((emission_acts g q).trans (driven _ _ _)).trans (driven _ _ _))
  rcases openSlot_eq slot p with e | ⟨g, e⟩ <;> rw [e]
  · exact opened _
  · exact (opened _).trans (emitted g _)

theorem closeSlot_acts (p : Part) : BlockActs p (closeSlot p) := by
  rw [closeSlot_eq]
  exact .update

theorem slotTimer_acts (p : Part) : BlockActs p (slotTimer p) := by
  unfold slotTimer
  split
  · exact (closeSlot_acts p).trans (openSlot_acts _ _)
  · exact .refl p

/-! ### Cycle starts and arrivals (R1, R9) -/

theorem doWork_acts (cs : CycleStart) (w : Work) (p : Part) : BlockActs p (doWork cs w p) := by
  cases w with
  | lineLoss => exact .of (.loss _ p)
  | cabDesk => exact .of (.desk p)
  | cabView => exact .of (.view _ p)
  | cabStage => exact .ite (fun h => .of (.stage h.2)) (fun _ => .refl p)
  | cabScrub => exact .of (.scrub p)
  | traction =>
    have inputs : BlockActs p (tractionInputs cs p) := .of (.tractionInputs cs p)
    exact .ite (fun _ => (inputs.trans (.of (.evaluation _))).trans (.of (.evaluated _))) (fun _ => inputs)
  | junction => exact .of (.junctionCycle p)
  | stop => exact .of (.doorTest p)
  | sound => exact .of (.soundCycle p)
  | tableStore => exact .trans .update (completeTransfer_acts _)

theorem presentCycle_acts (loss : Option LossChange) (order : List Work) (p : Part) :
    BlockActs p (presentCycle loss order p) :=
  presentCycle_keeps (BlockActs p) loss order p (.of (.ageing p)) fun cs w _ h => h.trans (doWork_acts cs w _)

theorem decideLanes_acts (down up : Bool) (p : Part) : BlockActs p (decideLanes down up p) :=
  .trans .update (.of (.loss _ _))

theorem endCycle_acts (p : Part) : BlockActs p (endCycle p) := (closeSlot_acts p).trans .update

theorem beaconStart_acts (lane : Lane) (cycle : Six) (order : List Work) (p : Part) :
    BlockActs p (beaconStart lane cycle order p) := by
  refine .trans ?_ (presentCycle_acts _ order _)
  exact (endCycle_acts p).trans (.trans .update (openSlot_acts 0 _))

theorem substituteStart_acts (order : List Work) (p : Part) : BlockActs p (substituteStart order p) :=
  .trans ((endCycle_acts p).trans .update) (presentCycle_acts _ order _)

theorem beaconArrival_acts (lane : Lane) (cycle : Six) (order : List Work) (p : Part) :
    BlockActs p (beaconArrival lane cycle order p) := by
  have started := beaconStart_acts lane cycle order p
  exact .ite (fun _ => .ite (fun _ => .ite (fun _ => .update) (fun _ => started))
    (fun _ => .ite (fun _ => .update) (fun _ => .ite (fun _ => .update) (fun _ => started)))) (fun _ => started)

theorem driveOut_acts (lane : Lane) {p : Part} {x : Part × Option (List Word)} (h : BlockActs p x.1) :
    BlockActs p (driveOut lane x) := by
  unfold driveOut
  split
  · exact h.trans (drive_acts _ _ _)
  · exact h

theorem cellArrivalIn_acts (lane : Lane) (words : List Word) (c : Cell) (intact : Bool) (p : Part) :
    BlockActs p (cellArrivalIn lane words c intact p) := by
  have counted : BlockActs p (countError lane p) := .update
  unfold cellArrivalIn slotArrival
  split
  · refine .ite (fun _ => counted.trans (drive_acts _ _ _)) (fun _ => driveOut_acts lane ?_)
    exact .trans (.trans (.ite (fun _ => .refl p) (fun _ => counted)) .update) (handOver_acts _ _ _ _ _)
  · exact .trans (.ite (fun _ => .refl p) (fun _ => counted)) (drive_acts _ _ _)

theorem arrive_acts (lane : Lane) (words : List Word) (order : List Work) (p : Part) :
    BlockActs p (arrive lane words order p) := by
  unfold arrive
  split
  · exact .ite (fun _ => (beaconArrival_acts lane _ order p).trans (drive_acts _ _ _))
      (fun _ => cellArrivalIn_acts lane words _ _ p)
  · exact cellArrivalIn_acts lane words _ _ p

/-! ### Steps -/

theorem powerOnReset_acts (lines : ResetLines) (p : Part) :
    BlockActs p (if lines.resetN then resetPart lines.toLines else heldPart lines.toLines p) :=
  .ite (fun _ => .of (.reset p ⟨⟨_, rfl⟩, ⟨_, rfl⟩, rfl, rfl, rfl, rfl⟩))
    (fun _ => .of (.reset p ⟨⟨_, rfl⟩, ⟨_, rfl⟩, rfl, rfl, rfl, rfl⟩))

theorem onPart_acts {f : Part → Part} (h : ∀ p, BlockActs p (f p)) {s t : State}
    (e : (Host.Outcome.next (s.onPart f) : Host.Outcome State Fault Refusal) = .next t) :
    BlockActs s.part t.part := by
  cases e
  exact h s.part

/-- An event inside a block, where its condition holds. -/
theorem when_acts {c : Part → Bool} {f : Part → Part} (h : ∀ p, c p = true → BlockAct p (f p)) {s t : State}
    (e : when c f s = .next t) : BlockActs s.part t.part :=
  onPart_acts (fun p => .ite (fun due => .of (h p due)) (fun _ => .refl p)) e

/-- Every command acts on the blocks through their operations. -/
theorem exec_acts (c : Instr) {s t : State} (e : exec c s = .next t) : BlockActs s.part t.part := by
  cases c with
  | powerOnReset lines => exact onPart_acts (powerOnReset_acts lines) e
  | cellArrival lane words lines order =>
    exact onPart_acts
      (fun p => .ite (fun _ => .trans .update (arrive_acts lane words order (withLines lines p)))
        (fun _ => .refl p)) e
  | substituteCycleStart lines order =>
    exact onPart_acts
      (fun p => .ite (fun _ => .trans .update (substituteStart_acts order (withLines lines p)))
        (fun _ => .refl p)) e
  | slotOpening => exact onPart_acts slotTimer_acts e
  | laneDown => exact onPart_acts (decideLanes_acts _ _) e
  | laneUp => exact onPart_acts (decideLanes_acts _ _) e
  | otherCabTimeout => exact when_acts (fun p _ => .view _ p) e
  | activationAttempt => exact when_acts (fun _ => .attempt) e
  | settleComplete => exact when_acts (fun _ => .settled) e
  | brakeTimeout => exact when_acts (fun _ => .brakeTimeout) e
  | entryToActive => exact when_acts (fun _ => .entry) e
  | pendingExitTaken => exact when_acts (fun _ => .exit) e
  | scrubPassBegin => exact when_acts (fun _ => .scrubPass) e
  | stabledExit => exact when_acts (fun _ => .stabledExit) e
  | speedSourceStale => exact when_acts (fun _ => .speedStale) e
  | speedLockAcquired => exact when_acts (fun _ => .speedLock) e
  | selectionTimeout => exact when_acts (fun _ => .selectionStale) e
  | requestTimeout pos => exact when_acts (fun _ => .requestTimeout) e
  | doorStatusStale => exact when_acts (fun _ => .doorStale) e
  | phaseEnd ch => exact when_acts (fun _ => .phaseEnd) e
  | stepEnd ch => exact when_acts (fun _ => .stepEnd) e
  | hornMinReached => exact when_acts (fun _ => .hornDone) e
  | hornStuck => exact when_acts (fun _ => .hornStuck) e
  | transferCompletion => exact onPart_acts (fun p => .ite (fun _ => completeTransfer_acts p) (fun _ => .refl p)) e
  | status tag page => exact onPart_acts (accept_acts _ _ (statusCommand_acts _ _)) e
  | clearStatus tag => exact onPart_acts (accept_acts _ _ (clearStatusCommand_acts _)) e
  | writeStage tag offset count words => exact onPart_acts (accept_acts _ _ (writeStage_acts _ _ _ _)) e
  | transfer tag table index => exact onPart_acts (accept_acts _ _ (transfer_acts _ _ _)) e
  | readEntry tag table index offset => exact onPart_acts (accept_acts _ _ (readEntryCommand_acts _ _ _ _)) e
  | envelopePointer tag breakpoint => exact onPart_acts (accept_acts _ _ (envelopePointer_acts _ _)) e
  | envelopeData tag count values => exact onPart_acts (accept_acts _ _ (envelopeData_acts _ _ _)) e
  | lockSetup tag => exact onPart_acts (accept_acts _ _ (lockSetupCommand_acts _)) e
  | lock tag table => exact onPart_acts (acceptLock_acts _ _ (lockCommand_acts lockTable_acts _ _ _)) e
  | unlock tag table => exact onPart_acts (acceptLock_acts _ _ (lockCommand_acts unlockTable_acts _ _ _)) e
  | lockDown tag table => exact onPart_acts (acceptLock_acts _ _ (lockCommand_acts lockDownTable_acts _ _ _)) e
  | setRestriction tag action value =>
    exact onPart_acts (accept_acts _ _ (setRestrictionCommand_acts _ _ _)) e
  | readRecord tag index page => exact onPart_acts (accept_acts _ _ (readRecordCommand_acts _ _ _)) e
  | stable tag => exact onPart_acts (accept_acts _ _ (stableCommand_acts _)) e
  | wake tag => exact onPart_acts (accept_acts _ _ (wakeCommand_acts _)) e
  | restart tag lines => exact onPart_acts (accept_acts _ _ (restartCommand_acts _ _)) e
  | unknownCommand tag code => exact onPart_acts (accept_acts _ _ (unknownCommand_acts _ _)) e

theorem step_acts {s t : State} (e : step s = .next t) : BlockActs s.part t.part := by
  unfold step at e
  split at e
  · cases e
    exact .refl _
  · next c rest _ => exact exec_acts (s := { s with pending := rest }) c e

end Sys2Proof.Machine
end

section
/-! ## The junction rows and the alarm conditions through every step: O59 -/

namespace Sys2Proof.Machine

set_option Elab.async false

theorem brakeTestStore_keepsJunction (r : SlotRecord) (p : Part) : KeepsJunction p (brakeTestStore r p) :=
  .ite (fun _ => .update) (fun _ => .refl p)

theorem routeSelectStore_keepsJunction (i : Fin 82) (r : SlotRecord) (p : Part) :
    KeepsJunction p (routeSelectStore i r p) :=
  .trans .update (select_keepsJunction _ _)

/-- STABLED is entered from INACTIVE (R63). -/
theorem enterStabled_keepsJunction {p : Part} (inactive : p.cab.state = .inactive) :
    KeepsJunction p (enterStabled p) := by
  have idle : cabLive p = false := by simp [cabLive, inactive]
  exact .update (live := fun _ => idle) (active := fun _ => .inl (not_active_of_not_live idle))

theorem brakeTestFails_keepsJunction {p : Part} (due : brakeTestIsOver p = true) :
    KeepsJunction p (brakeTestFails p) := by
  simp only [brakeTestIsOver, Bool.and_eq_true, beq_iff_eq] at due
  obtain ⟨⟨activating, -⟩, -⟩ := due
  exact activationFails_keepsJunction activating _ _ _

/-- Every operation of the blocks keeps the rows and the conditions. -/
theorem BlockAct.keepsJunction {p q : Part} (h : BlockAct p q) : KeepsJunction p q := by
  cases h with
  | stands h =>
    obtain ⟨cab, caps, traction, junction, -, sound⟩ := h
    exact .of_sound (by rw [sound]; exact .refl _) junction (by rw [caps]) (by rw [caps]) traction cab
  | reset _ h =>
    obtain ⟨-, ⟨n, caps⟩, traction, junction, -, sound⟩ := h
    exact reset_keepsJunction junction caps sound traction
  | ageing => exact .update
  | loss x => exact presentLoss_keepsJunction x p
  | desk => exact deskCycle_keepsJunction p
  | stage activating => exact stageCycle_keepsJunction activating
  | scrub => exact scrubCycle_keepsJunction p
  | tractionInputs cs => exact tractionInputs_keepsJunction cs p
  | evaluation => exact evaluate_keepsJunction p
  | evaluated => exact presentEvaluation_keepsJunction p
  | junctionCycle => exact junctionCycle_keepsJunction p
  | doorTest => exact testDoors_keepsJunction p
  | soundCycle => exact soundCycle_keepsJunction p
  | brakeTest r => exact brakeTestStore_keepsJunction r p
  | speed r => exact speedStore_keepsJunction r p
  | marker r => exact markerStore_keepsJunction r p
  | selection i r => exact routeSelectStore_keepsJunction i r p
  | point r => exact pointStore_keepsJunction r p
  | button r => exact buttonStore_keepsJunction r p
  | door i r => exact doorStore_keepsJunction i r p
  | view v => exact takeView_keepsJunction v p
  | item => exact nextItem_keepsJunction p
  | lineLimit n => exact .update
  | table t => exact tableChanged_keepsJunction t p
  | restrict n => exact .update
  | unrestrict => exact .update
  | stabled inactive => exact enterStabled_keepsJunction inactive
  | wake => exact .trans .update (leaveStabledIfDue_keepsJunction _)
  | attempt due => exact attempt_keepsJunction due
  | settled _ => exact .update
  | brakeTimeout due => exact brakeTestFails_keepsJunction due
  | entry _ => exact enterActive_keepsJunction p
  | exit _ => exact takeExit_keepsJunction p
  | scrubPass _ => exact .trans .update (scrubTable_keepsJunction _ _)
  | stabledExit due => exact leaveStabled_keepsJunction due
  | speedStale _ => exact speedGoesStale_keepsJunction p
  | speedLock _ => exact .update
  | selectionStale _ => exact select_keepsJunction 0 p
  | requestTimeout _ => exact timeOut_keepsJunction _ p
  | doorStale _ => exact .update
  | phaseEnd _ => exact endChannelPhase_keepsJunction _ p
  | stepEnd _ => exact endChannelStep_keepsJunction _ p
  | hornDone _ => exact .update
  | hornStuck _ => exact .update

/-- Settles O59: each operation of the blocks keeps both invariants, and a step is a chain of them. -/
theorem stepKeepsTheJunctionRowsAndTheLamp : Obligations.StepKeepsTheJunctionRowsAndTheLamp := by
  intro s t h e
  have keeps : KeepsJunction s.part t.part :=
    (step_acts e).lift .refl (fun a b => a.trans b) BlockAct.keepsJunction
  exact ⟨keeps.rows h, keeps.lamp h⟩

end Sys2Proof.Machine
end

section
/-! ## What an evaluation computes (R78, R87 to R101): O33, O34 -/

namespace Sys2Proof.Machine

set_option Elab.async false

/-! ### Inputs (R81, R87, R88) -/

theorem fnWord_of_record {p : Part} {f : Fn} {x : SlotRecord} (h : fnRecord p f = some x) (i : Nat) :
    fnWord p f i = wordAt x.payload i := by
  simp only [fnWord, h]

theorem emergencyActive_iff (p : Part) : emergencyActive p = true ↔
    ∃ x, fnRecord p .emergency = some x ∧ x.age ≤ 3 ∧ (wordAt x.payload 0).getLsbD 0 = true := by
  unfold emergencyActive emergencyFresh
  rw [Bool.and_eq_true, freshWithin_iff]
  constructor
  · rintro ⟨⟨x, hx, fresh⟩, bit⟩
    exact ⟨x, hx, fresh, by rwa [fnWord_of_record hx] at bit⟩
  · rintro ⟨x, hx, fresh, bit⟩
    exact ⟨⟨x, hx, fresh⟩, by rwa [fnWord_of_record hx]⟩

theorem handleFresh_iff (p : Part) :
    handleFresh p = true ↔ ∃ x, fnRecord p .handle = some x ∧ x.age ≤ handleStale p :=
  freshWithin_iff p .handle _

theorem handleFresh_eq_false (p : Part) :
    handleFresh p = false ↔ ∀ x, fnRecord p .handle = some x → handleStale p < x.age :=
  freshWithin_eq_false p .handle _

theorem handleValue_of_record {p : Part} {x : SlotRecord} (h : fnRecord p .handle = some x) :
    handleValue p = handleOf (wordAt x.payload 0) := by
  rw [handleValue, fnWord_of_record h]

section
variable {p : Part}

theorem emergencyActive_eq_false (h : ∀ x, fnRecord p .emergency = some x →
      3 < x.age ∨ (wordAt x.payload 0).getLsbD 0 = false) : emergencyActive p = false := by
  rw [← Bool.not_eq_true, emergencyActive_iff]
  rintro ⟨x, hx, fresh, bit⟩
  rcases h x hx with old | clear
  · omega
  · exact absurd (clear.symm.trans bit) (by decide)

theorem latchAfter_of_emergency (h : emergencyActive p = true) : latchAfter p = true := by
  simp [latchAfter, h]

theorem emergency_clear_of_unlatched (h : latchAfter p = false) : emergencyActive p = false := by
  by_contra active
  simp [latchAfter_of_emergency (Bool.not_eq_false _ ▸ active)] at h

theorem latchAfter_reset (clear : emergencyActive p = false) {x : SlotRecord} (hx : fnRecord p .handle = some x)
    (fresh : x.age ≤ handleStale p) (braking : (wordAt x.payload 0).toInt ≤ -900) : latchAfter p = false := by
  have handle : handleFresh p = true := (handleFresh_iff p).mpr ⟨x, hx, fresh⟩
  simp [latchAfter, clear, handle, handleValue_of_record hx, (handleOf_le_iff _).mpr braking]

theorem latchAfter_stands (clear : emergencyActive p = false) (h : ∀ x, fnRecord p .handle = some x →
      handleStale p < x.age ∨ -900 < (wordAt x.payload 0).toInt) : latchAfter p = p.traction.latch := by
  have kept : (handleFresh p && decide (handleValue p ≤ -900)) = false := by
    rw [← Bool.not_eq_true, Bool.and_eq_true, handleFresh_iff, decide_eq_true_iff]
    rintro ⟨⟨x, hx, fresh⟩, braking⟩
    rw [handleValue_of_record hx, handleOf_le_iff] at braking
    have := h x hx
    omega
  simp [latchAfter, clear, kept]

/-- Stage 1 in ACTIVE, unlatched: the handle's value or the stale handle's brake (R81, R94). -/
theorem handleTarget_eq {H : Int} {why : Reason}
    (fresh : ∀ x, fnRecord p .handle = some x → x.age ≤ handleStale p →
      H = max (-1000) (min 1000 (wordAt x.payload 0).toInt) ∧ why = .handle)
    (stale : (∀ x, fnRecord p .handle = some x → handleStale p < x.age) →
      H = -(staleBrake p : Int) ∧ why = .staleHandle) : handleTarget p = { x := H, reason := why } := by
  unfold handleTarget
  split
  · next h =>
    obtain ⟨x, hx, age⟩ := (handleFresh_iff p).mp h
    obtain ⟨rfl, rfl⟩ := fresh x hx age
    rw [handleValue_of_record hx]
    rfl
  · next h =>
    obtain ⟨rfl, rfl⟩ := stale ((handleFresh_eq_false p).mp (Bool.eq_false_iff.mpr h))
    rfl

end

/-! ### The judgements before the demand (R91, R96) -/

/-- The part after the inputs and the envelope have been judged. -/
def sensed (p : Part) : Part := judgeEnvelope (judgeInputs p)

/-- The part that the demand is computed in. -/
def judged (p : Part) : Part := judgeEpisode (sensed p)

theorem evaluate_eq (p : Part) : evaluate p = finish (judged p) := rfl

/-- The envelope alarm at the evaluation (R91). -/
def alarmAfter (p : Part) : Bool :=
  if p.cab.state = .active then !p.tables.envelopeValid else p.traction.envelopeAlarm

/-- A forced episode begins at the evaluation (R96). -/
abbrev EpisodeBegins (p : Part) : Prop :=
  p.cab.state = .active ∧ permittedSpeed p + overspeedMargin p ≤ p.traction.vEff
    ∧ latchAfter p = false ∧ p.traction.episode = false

/-- A forced episode cannot go on at the evaluation (R96). -/
abbrev EpisodeEnds (p : Part) : Prop := p.cab.state = .active ∧ p.traction.vEff < permittedSpeed p

theorem EpisodeBegins.not_ends {p : Part} (h : EpisodeBegins p) : ¬ EpisodeEnds p := by
  obtain ⟨-, above, -⟩ := h
  rintro ⟨-, below⟩
  omega

theorem judgeInputs_eq (p : Part) : judgeInputs p = { p with
    traction := { p.traction with latch := latchAfter p }
    mgmt := { p.mgmt with flags := (judgeInputs p).mgmt.flags } } := rfl

theorem judgeEnvelope_active {p : Part} (h : p.cab.state = .active) : judgeEnvelope p = { p with
    traction := { p.traction with envelopeAlarm := !p.tables.envelopeValid }
    sound := { p.sound with
      envelope := if (!p.tables.envelopeValid) = p.traction.envelopeAlarm then p.sound.envelope
        else !p.tables.envelopeValid }
    mgmt := { p.mgmt with flags := (judgeEnvelope p).mgmt.flags } } := by
  simp only [judgeEnvelope, h, if_true]
  rfl

theorem judgeEnvelope_of_ne {p : Part} (h : p.cab.state ≠ .active) : judgeEnvelope p = p := if_neg h

theorem sensed_eq (p : Part) : sensed p = { p with
    traction := { p.traction with latch := latchAfter p, envelopeAlarm := alarmAfter p }
    sound := { p.sound with
      envelope := if alarmAfter p = p.traction.envelopeAlarm then p.sound.envelope else alarmAfter p }
    mgmt := { p.mgmt with flags := (sensed p).mgmt.flags } } := by
  unfold sensed alarmAfter
  by_cases h : p.cab.state = .active
  · rw [if_pos h, judgeEnvelope_active (p := judgeInputs p) h, judgeInputs_eq]
  · rw [if_neg h, if_pos rfl, judgeEnvelope_of_ne (p := judgeInputs p) h, judgeInputs_eq]

/-- The flags that the judgement of the inputs and the envelope sets (R81, R87, R91). -/
theorem sensed_flags (p : Part) (f : Flag) : hasFlag (sensed p).mgmt.flags f = true ↔
    hasFlag p.mgmt.flags f = true
      ∨ (f = .emergStale ∧ ∀ x, fnRecord p .emergency = some x → 3 < x.age)
      ∨ (f = .handleStale ∧ ∀ x, fnRecord p .handle = some x → handleStale p < x.age)
      ∨ (f = .envelopeInvalid ∧ p.cab.state = .active ∧ p.tables.envelopeValid = false) := by
  have inputs : hasFlag (judgeInputs p).mgmt.flags f = true ↔ hasFlag p.mgmt.flags f = true
      ∨ (f = .emergStale ∧ ∀ x, fnRecord p .emergency = some x → 3 < x.age)
      ∨ (f = .handleStale ∧ ∀ x, fnRecord p .handle = some x → handleStale p < x.age) := by
    rw [← freshWithin_eq_false, ← handleFresh_eq_false]
    show hasFlag (setFlagIf (!handleFresh p) .handleStale
      (setFlagIf (!emergencyFresh p) .emergStale p)).mgmt.flags f = true ↔ _
    rw [hasFlag_setFlagIf, hasFlag_setFlagIf, Bool.not_eq_true', Bool.not_eq_true', or_assoc]
    rfl
  unfold sensed judgeEnvelope
  by_cases h : p.cab.state = .active
  · rw [if_pos (show (judgeInputs p).cab.state = .active from h)]
    show hasFlag (setFlagIf (!p.tables.envelopeValid) .envelopeInvalid (judgeInputs p)).mgmt.flags f = true ↔ _
    rw [hasFlag_setFlagIf, inputs, Bool.not_eq_true']
    simp only [h, true_and, or_assoc]
  · rw [if_neg (show (judgeInputs p).cab.state ≠ .active from h), inputs]
    simp only [h, false_and, and_false, or_false]

section
variable (p : Part)

@[simp] theorem sensed_cab : (sensed p).cab = p.cab := by rw [sensed_eq]
@[simp] theorem sensed_tables : (sensed p).tables = p.tables := by rw [sensed_eq]
@[simp] theorem sensed_traction : (sensed p).traction =
    { p.traction with latch := latchAfter p, envelopeAlarm := alarmAfter p } := by rw [sensed_eq]
@[simp] theorem sensed_permittedSpeed : permittedSpeed (sensed p) = permittedSpeed p := by
  rw [sensed_eq]; rfl
@[simp] theorem sensed_overspeedMargin : overspeedMargin (sensed p) = overspeedMargin p := by
  rw [sensed_eq]; rfl

end

section
variable {p : Part}

theorem judged_of_ends (h : EpisodeEnds p) : judged p = endEpisode (sensed p) := by
  obtain ⟨active, below⟩ := h
  simp [judged, judgeEpisode, active, below]

theorem judged_of_begins (h : EpisodeBegins p) : judged p = beginEpisode (sensed p) := by
  have above : ¬ p.traction.vEff < permittedSpeed p := fun below => h.not_ends ⟨h.1, below⟩
  obtain ⟨active, reached, unlatched, off⟩ := h
  simp [judged, judgeEpisode, active, above, reached, unlatched, off]

theorem judged_of_stands (ends : ¬ EpisodeEnds p) (begins : ¬ EpisodeBegins p) : judged p = sensed p := by
  unfold judged judgeEpisode
  split
  · next active =>
    rw [sensed_cab] at active
    have above : ¬ p.traction.vEff < permittedSpeed p := fun below => ends ⟨active, below⟩
    have stays : latchAfter p = false → p.traction.episode = false →
        ¬ permittedSpeed p + overspeedMargin p ≤ p.traction.vEff := fun unlatched off reached =>
      begins ⟨active, reached, unlatched, off⟩
    rw [if_neg (by simpa using above), if_neg (by simpa using stays)]
  · rfl

end

/-- The forced episode after the evaluation (R96). -/
def episodeAfter (p : Part) : Bool :=
  if EpisodeEnds p then false else if EpisodeBegins p then true else p.traction.episode

section
variable {p : Part}

theorem episodeAfter_of_ends (h : EpisodeEnds p) : episodeAfter p = false := if_pos h

theorem episodeAfter_of_begins (h : EpisodeBegins p) : episodeAfter p = true := by
  rw [episodeAfter, if_neg h.not_ends, if_pos h]

theorem episodeAfter_of_stands (ends : ¬ EpisodeEnds p) (begins : ¬ EpisodeBegins p) :
    episodeAfter p = p.traction.episode := by
  rw [episodeAfter, if_neg ends, if_neg begins]

/-- An episode is on that was not before only where it begins. -/
theorem episodeBegins_iff : EpisodeBegins p ↔ p.traction.episode = false ∧ episodeAfter p = true := by
  refine ⟨fun h => ⟨h.2.2.2, episodeAfter_of_begins h⟩, fun ⟨off, on⟩ => ?_⟩
  by_contra begins
  by_cases ends : EpisodeEnds p
  · simp [episodeAfter_of_ends ends] at on
  · simp [episodeAfter_of_stands ends begins, off] at on

end

/-- The judgements change the latch, the episode, the envelope alarm, the sound unit and flags. -/
theorem judged_eq (p : Part) : judged p = { p with
    traction := { p.traction with
      latch := latchAfter p
      episode := episodeAfter p
      envelopeAlarm := alarmAfter p }
    sound := (judged p).sound
    mgmt := { p.mgmt with flags := (judged p).mgmt.flags } } := by
  by_cases ends : EpisodeEnds p
  · rw [judged_of_ends ends, episodeAfter_of_ends ends, sensed_eq]
    rfl
  · by_cases begins : EpisodeBegins p
    · rw [judged_of_begins begins, episodeAfter_of_begins begins, sensed_eq, beginEpisode,
        request_chime_eq rfl]
      rfl
    · rw [judged_of_stands ends begins, episodeAfter_of_stands ends begins, sensed_eq]

end Sys2Proof.Machine
end

section
/-! ## The demand of an evaluation: O33, O34 -/

namespace Sys2Proof.Machine

set_option Elab.async false

/-! ### The demand in the part as judged (R94) -/

section
variable (p : Part)

/-- An episode that begins or ends at the evaluation leaves stage 2 as it is (R95, R96). -/
theorem supervise_episodeAfter :
    supervise p.traction.vEff (permittedSpeed p) (overspeedMargin p) (episodeAfter p) =
      supervise p.traction.vEff (permittedSpeed p) (overspeedMargin p) p.traction.episode := by
  unfold supervise
  split
  · rfl
  · next under =>
    split
    · next above =>
      rw [episodeAfter_of_stands (fun ends => absurd ends.2 (Nat.not_lt.mpr above)) fun begins => under begins.2.1]
    · rfl

theorem fourStages_judged : fourStages (judged p) = fourStages p := by
  have stages : fourStages (judged p) = ramp
      (supervise p.traction.vEff (permittedSpeed p) (overspeedMargin p) (episodeAfter p)) p.traction.dPrev
      (rampUp p) (rampDown p) (shape (limits p) (superviseTarget
        (supervise p.traction.vEff (permittedSpeed p) (overspeedMargin p) (episodeAfter p)) (forceBrake p)
        (handleTarget p))) := by
    rw [judged_eq]
    rfl
  rw [stages, supervise_episodeAfter]
  rfl

/-- The demand that the evaluation computes, with its reason. -/
def demandAt : Target := demandOf (judged p)

theorem evaluate_traction : (evaluate p).traction = { p.traction with
    latch := latchAfter p
    episode := episodeAfter p
    envelopeAlarm := alarmAfter p
    dPrev := (demandAt p).x
    demand := {
      d := (demandAt p).x
      reason := (demandAt p).reason
      source := capSource p
      p := permittedSpeed p
      v := p.traction.vEff } } := by
  unfold demandAt
  rw [evaluate_eq]
  generalize hq : judged p = q
  have frame := judged_eq p
  rw [hq] at frame
  unfold finish
  generalize demandOf q = t
  rw [frame]
  rfl

end

section
variable {p : Part}

theorem demandAt_activating (h : p.cab.state = .activating) :
    demandAt p = { x := -1000, reason := .activating } := by
  have h' : (judged p).cab.state = .activating := by rw [judged_eq]; exact h
  simp [demandAt, demandOf, h']

theorem demandAt_hold (h : p.cab.state = .hold) :
    demandAt p = { x := -(holdBrake p : Int), reason := .hold } := by
  have h' : (judged p).cab.state = .hold := by rw [judged_eq]; exact h
  have brake : holdBrake (judged p) = holdBrake p := by rw [judged_eq]; rfl
  simp [demandAt, demandOf, h', brake]

theorem demandAt_active (h : p.cab.state = .active) :
    demandAt p = if latchAfter p then { x := -1000, reason := .emergency } else fourStages p := by
  have h' : (judged p).cab.state = .active := by rw [judged_eq]; exact h
  have latch : (judged p).traction.latch = latchAfter p := by rw [judged_eq]
  simp [demandAt, demandOf, h', latch, fourStages_judged]

end

/-! ### Stages 2 to 4 (R95 to R98) -/

section
variable {v P M : Nat} {episode : Bool}

theorem supervise_forced (h : P + M ≤ v ∨ (P ≤ v ∧ episode = true)) : supervise v P M episode = .forced := by
  rcases h with reached | ⟨above, on⟩
  · simp [supervise, reached]
  · simp [supervise, above, on]

theorem supervise_cut (above : P ≤ v) (under : v < P + M) (off : episode = false) :
    supervise v P M episode = .cut := by
  simp [supervise, above, Nat.not_le.mpr under, off]

theorem supervise_below (h : v < P) : supervise v P M episode = .none := by
  have under : ¬ P + M ≤ v := by omega
  simp [supervise, under, Nat.not_le.mpr h]

end

section
variable {T B : Int} (t : Target)

/-- Stage 3 keeps a brake within B (R97). -/
theorem shape_brake (hB : 0 ≤ B) {t : Target} (h : t.x ≤ 0) : shape (T, B) t = {
      x := max t.x (-B)
      reason := if t.x < -B then .envelopeB else t.reason } := by
  unfold shape
  rw [if_neg (by omega)]
  by_cases beyond : t.x < -B
  · rw [if_pos ⟨by omega, beyond⟩, if_pos beyond, max_eq_right (by omega)]
  · rw [if_neg (by omega), if_neg beyond, max_eq_left (by omega)]

/-- Stage 3 keeps traction within T (R97). -/
theorem shape_drive {t : Target} (h : 0 < t.x) : shape (T, B) t = {
      x := min t.x T
      reason := if T < t.x then .envelopeT else t.reason } := by
  unfold shape
  by_cases beyond : T < t.x
  · rw [if_pos ⟨h, beyond⟩, if_pos beyond, min_eq_right (by omega)]
  · rw [if_neg (by omega), if_neg (by omega), if_neg beyond, min_eq_left (by omega)]

/-- Stage 3 keeps a target within T and −B. -/
theorem shape_eq (hB : 0 ≤ B) : shape (T, B) t = {
      x := if 0 < t.x then min t.x T else max t.x (-B)
      reason := if 0 < t.x ∧ T < t.x then .envelopeT else if t.x < -B then .envelopeB else t.reason } := by
  by_cases h : 0 < t.x
  · have notBrake : ¬ t.x < -B := by omega
    rw [shape_drive h]
    simp only [h, true_and, if_true, notBrake, if_false]
  · rw [shape_brake hB (Int.not_lt.mp h)]
    simp only [h, false_and, if_false]

/-- FORCED brakes with B_force, within the limit B. -/
theorem shape_forced (hB : 0 ≤ B) (force : Nat) :
    shape (T, B) (superviseTarget .forced force t) = {
      x := max (-(force : Int)) (-B)
      reason := if B < (force : Int) then .envelopeB else .forced } := by
  have brake : (superviseTarget .forced force t).x ≤ 0 := superviseTarget_nonpos (by decide) force t
  rw [shape_brake hB brake]
  simp only [superviseTarget, neg_lt_neg_iff]

/-- CUT lets no traction through, and braking within the limit B. -/
theorem shape_cut (hB : 0 ≤ B) (force : Nat) :
    shape (T, B) (superviseTarget .cut force t) = {
      x := max (min t.x 0) (-B)
      reason := if t.x < -B then .envelopeB else if 0 < t.x then .cut else t.reason } := by
  have brake : (superviseTarget .cut force t).x ≤ 0 := superviseTarget_nonpos (by decide) force t
  have beyond : min t.x 0 < -B ↔ t.x < -B := by omega
  rw [shape_brake hB brake]
  simp only [superviseTarget, beyond]

end

/-- Stage 4 leads from D_prev to X by R_up and R_down at most (R98). -/
theorem ramp_none (dPrev up down : Int) (t : Target) : ramp .none dPrev up down t = {
      x := if dPrev < t.x then min t.x (dPrev + up) else if t.x < dPrev then max t.x (dPrev - down) else t.x
      reason := if (ramp .none dPrev up down t).x = t.x then t.reason else .ramp } := rfl

section
variable {p : Part}

theorem fourStages_of {outcome : Supervision} (h : supervise p.traction.vEff (permittedSpeed p)
      (overspeedMargin p) p.traction.episode = outcome) : fourStages p =
    ramp outcome p.traction.dPrev (rampUp p) (rampDown p)
      (shape (limits p) (superviseTarget outcome (forceBrake p) (handleTarget p))) := by
  subst h
  rfl

theorem fourStages_forced (h : permittedSpeed p + overspeedMargin p ≤ p.traction.vEff
      ∨ (permittedSpeed p ≤ p.traction.vEff ∧ p.traction.episode = true)) : fourStages p = {
      x := max (-(forceBrake p : Int)) (-(limits p).2)
      reason := if (limits p).2 < (forceBrake p : Int) then .envelopeB else .forced } :=
  (fourStages_of (supervise_forced h)).trans (shape_forced _ (limits_nonneg p).2 _)

theorem fourStages_cut (above : permittedSpeed p ≤ p.traction.vEff)
    (under : p.traction.vEff < permittedSpeed p + overspeedMargin p) (off : p.traction.episode = false) :
    fourStages p = {
      x := max (min (handleTarget p).x 0) (-(limits p).2)
      reason := if (handleTarget p).x < -(limits p).2 then .envelopeB
        else if 0 < (handleTarget p).x then .cut else (handleTarget p).reason } :=
  (fourStages_of (supervise_cut above under off)).trans (shape_cut _ (limits_nonneg p).2 _)

theorem fourStages_below (h : p.traction.vEff < permittedSpeed p) : fourStages p =
    ramp .none p.traction.dPrev (rampUp p) (rampDown p) (shape (limits p) (handleTarget p)) :=
  fourStages_of (supervise_below h)

end

/-! ### O33 -/

theorem cabActs_states {p : Part} (h : cabActs p = true) :
    p.cab.state = .activating ∨ p.cab.state = .active ∨ p.cab.state = .hold := by
  cases hs : p.cab.state <;> simp_all [cabActs]

/-- D is positive below P alone. -/
theorem below_of_fourStages_pos {p : Part} (h : 0 < (fourStages p).x) : p.traction.vEff < permittedSpeed p := by
  by_contra above
  have acts : supervise p.traction.vEff (permittedSpeed p) (overspeedMargin p) p.traction.episode ≠ .none := by
    rw [Nat.not_lt] at above
    unfold supervise
    split
    · decide
    · cases p.traction.episode <;> simp
  rw [fourStages_of rfl, ramp_of_ne acts] at h
  exact absurd (shape_nonpos (limits_nonneg p).2 (superviseTarget_nonpos acts _ _)) (Int.not_le.mpr h)

/-- Settles O33: outside ACTIVE and under the latch D is a brake, and from P on stage 2 lets no traction
through. -/
theorem positiveDemandIsBelowThePermittedSpeed : Obligations.PositiveDemandIsBelowThePermittedSpeed := by
  intro p acts positive
  rw [evaluate_traction] at positive ⊢
  have active : p.cab.state = .active := by
    rcases cabActs_states acts with h | h | h
    · simp [demandAt_activating h] at positive
    · exact h
    · simp [demandAt_hold h] at positive
      omega
  dsimp only at positive
  rw [demandAt_active active] at positive
  cases latch : latchAfter p with
  | true => simp [latch] at positive
  | false =>
    rw [latch] at positive
    exact ⟨active, emergency_clear_of_unlatched latch, rfl, below_of_fourStages_pos positive, rfl, rfl⟩

end Sys2Proof.Machine
end

section
/-! ## What an evaluation changes besides the demand (R87, R91, R96, R101): O34 -/

namespace Sys2Proof.Machine

set_option Elab.async false

/-! ### A request on the chime channel -/

/-- A request on the chime channel changes its three sources alone. -/
theorem request_chime_sound {x : Source} (h : channelOf x = .chime) (p : Part) :
    (request x p).sound = { p.sound with
      alarm := (request x p).sound.alarm
      assist := (request x p).sound.assist
      stop := (request x p).sound.stop } := by
  have desk : SameDesk p.sound (request x p).sound := requestSource_desk _ _ x p.sound
  have driverBell : (request x p).sound.driverBell = p.sound.driverBell :=
    request_other (y := .driverBell) (by rw [h]; decide) p
  have depart : (request x p).sound.depart = p.sound.depart :=
    request_other (y := .depart) (by rw [h]; decide) p
  obtain ⟨horn, hornCount, bellBtn, hornBtn, ackBtn, fault, overflow, forced, envelope⟩ := desk
  simp only [← horn, ← hornCount, ← bellBtn, ← hornBtn, ← ackBtn, ← fault, ← overflow, ← forced, ← envelope,
    ← driverBell, ← depart]

section
variable {p : Part}

theorem beginEpisode_sound (p : Part) : (beginEpisode p).sound = { p.sound with
    alarm := (beginEpisode p).sound.alarm
    assist := (beginEpisode p).sound.assist
    stop := (beginEpisode p).sound.stop
    forced := true } :=
  request_chime_sound (x := .alarm) rfl _

/-- The judgements change the three sources of the chime channel and the two conditions. -/
theorem judged_sound (p : Part) : (judged p).sound = { p.sound with
    alarm := (judged p).sound.alarm
    assist := (judged p).sound.assist
    stop := (judged p).sound.stop
    forced := (judged p).sound.forced
    envelope := (judged p).sound.envelope } := by
  by_cases ends : EpisodeEnds p
  · rw [judged_of_ends ends, sensed_eq]
    rfl
  · by_cases begins : EpisodeBegins p
    · rw [judged_of_begins begins, beginEpisode_sound, sensed_eq]
    · rw [judged_of_stands ends begins, sensed_eq]

/-- The beginning and the end of an episode are presented (R101). -/
theorem judged_forced (p : Part) : (judged p).sound.forced =
    if episodeAfter p = p.traction.episode then p.sound.forced else episodeAfter p := by
  by_cases ends : EpisodeEnds p
  · rw [judged_of_ends ends, episodeAfter_of_ends ends, sensed_eq]
    cases h : p.traction.episode <;> simp [endEpisode, h]
  · by_cases begins : EpisodeBegins p
    · obtain ⟨-, -, -, off⟩ := id begins
      rw [judged_of_begins begins, episodeAfter_of_begins begins, beginEpisode_sound, off]
      rfl
    · rw [judged_of_stands ends begins, episodeAfter_of_stands ends begins, if_pos rfl, sensed_eq]

/-- A change of the envelope alarm is presented (R101). -/
theorem judged_envelope (p : Part) : (judged p).sound.envelope =
    if alarmAfter p = p.traction.envelopeAlarm then p.sound.envelope else alarmAfter p := by
  have presented : (sensed p).sound.envelope =
      if alarmAfter p = p.traction.envelopeAlarm then p.sound.envelope else alarmAfter p := by rw [sensed_eq]
  rw [← presented]
  by_cases ends : EpisodeEnds p
  · rw [judged_of_ends ends]
    rfl
  · by_cases begins : EpisodeBegins p
    · rw [judged_of_begins begins, beginEpisode_sound]
    · rw [judged_of_stands ends begins]

/-- ALARM is requested at the beginning of an episode alone. -/
theorem judged_source (h : ¬ EpisodeBegins p) (x : Source) :
    getSource (judged p).sound x = getSource p.sound x := by
  by_cases ends : EpisodeEnds p
  · rw [judged_of_ends ends, sensed_eq]
    cases x <;> rfl
  · rw [judged_of_stands ends h, sensed_eq]
    cases x <;> rfl

theorem judged_alarm (h : EpisodeBegins p) (hs : (patternOf p.tables.cadence.words .alarm).steps ≠ 0) :
    (judged p).sound.alarm.state ≠ .idle := by
  obtain ⟨active, -⟩ := id h
  rw [judged_of_begins h]
  refine request_notIdle (x := .alarm) ?_ ?_
  · show cabActs (sensed p) = true
    simp [cabActs, active]
  · show (patternOf (sensed p).tables.cadence.words .alarm).steps ≠ 0
    rw [sensed_tables]
    exact hs

/-! ### Flags -/

theorem judged_flags (p : Part) (f : Flag) : hasFlag (judged p).mgmt.flags f = true ↔
    hasFlag (sensed p).mgmt.flags f = true ∨ (f = .overspeed ∧ EpisodeBegins p) := by
  by_cases begins : EpisodeBegins p
  · rw [judged_of_begins begins]
    have begun := hasFlag_setFlagIf true .overspeed f (sensed p)
    exact begun.trans (or_congr_right (and_congr_right fun _ => iff_of_true rfl begins))
  · by_cases ends : EpisodeEnds p
    · rw [judged_of_ends ends]
      simp only [begins, and_false, or_false]
      rfl
    · rw [judged_of_stands ends begins]
      simp only [begins, and_false, or_false]

theorem evaluate_flags (p : Part) (f : Flag) : hasFlag (evaluate p).mgmt.flags f = true ↔
    hasFlag p.mgmt.flags f = true
      ∨ (f = .emergStale ∧ ∀ x, fnRecord p .emergency = some x → 3 < x.age)
      ∨ (f = .handleStale ∧ ∀ x, fnRecord p .handle = some x → handleStale p < x.age)
      ∨ (f = .envelopeInvalid ∧ p.cab.state = .active ∧ p.tables.envelopeValid = false)
      ∨ (f = .overspeed ∧ p.traction.episode = false ∧ episodeAfter p = true) := by
  have judgement := judged_flags p f
  rw [sensed_flags, episodeBegins_iff] at judgement
  simp only [or_assoc] at judgement
  exact judgement

/-- Nothing else changes. -/
theorem evaluate_frame (p : Part) : evaluate p = { p with
    traction := (evaluate p).traction
    sound := { p.sound with
      alarm := (evaluate p).sound.alarm
      assist := (evaluate p).sound.assist
      stop := (evaluate p).sound.stop
      forced := (evaluate p).sound.forced
      envelope := (evaluate p).sound.envelope }
    mgmt := { p.mgmt with flags := (evaluate p).mgmt.flags } } := by
  have frame := judged_eq p
  rw [judged_sound p] at frame
  rw [evaluate_eq]
  generalize ht : (finish (judged p)).traction = t
  calc finish (judged p) = { judged p with traction := t } := by rw [← ht]; rfl
    _ = _ := by rw [frame]; rfl

end

/-! ### The judgements by state and speed -/

section
variable {p : Part}

theorem alarmAfter_active (h : p.cab.state = .active) : alarmAfter p = !p.tables.envelopeValid := if_pos h

/-- Outside ACTIVE the episode and the envelope alarm stand. -/
theorem judgements_stand (h : p.cab.state ≠ .active) :
    episodeAfter p = p.traction.episode ∧ alarmAfter p = p.traction.envelopeAlarm :=
  ⟨episodeAfter_of_stands (fun ends => h ends.1) (fun begins => h begins.1), if_neg h⟩

theorem episodeAfter_above (above : permittedSpeed p ≤ p.traction.vEff)
    (h : latchAfter p = true ∨ p.traction.vEff < permittedSpeed p + overspeedMargin p) :
    episodeAfter p = p.traction.episode := by
  refine episodeAfter_of_stands (fun ends => absurd ends.2 (Nat.not_lt.mpr above)) ?_
  rintro ⟨-, reached, unlatched, -⟩
  rcases h with latched | under
  · exact absurd (unlatched.symm.trans latched) (by decide)
  · omega

/-- At P + M, unlatched, the episode is on; where it was off, it begins with OVERSPEED, the lamp and ALARM. -/
theorem episodeAfter_reached (active : p.cab.state = .active) (unlatched : latchAfter p = false)
    (reached : permittedSpeed p + overspeedMargin p ≤ p.traction.vEff) :
    episodeAfter p = true
      ∧ (p.traction.episode = false →
        hasFlag (evaluate p).mgmt.flags .overspeed = true ∧ alarmLamp (evaluate p) = true
          ∧ ((patternOf p.tables.cadence.words .alarm).steps ≠ 0 → (evaluate p).sound.alarm.state ≠ .idle)) := by
  have begins : p.traction.episode = false → EpisodeBegins p := fun off => ⟨active, reached, unlatched, off⟩
  have on : episodeAfter p = true := by
    cases h : p.traction.episode with
    | false => exact episodeAfter_of_begins (begins h)
    | true =>
      rw [episodeAfter_of_stands (fun ends => absurd ends.2 (by omega)) fun b => ?_, h]
      exact absurd (h.symm.trans b.2.2.2) (by decide)
  refine ⟨on, fun off => ⟨?_, ?_, judged_alarm (begins off)⟩⟩
  · exact (evaluate_flags p _).mpr (.inr (.inr (.inr (.inr ⟨rfl, off, on⟩))))
  · have lit : (evaluate p).sound.forced = true := (judged_forced p).trans (by rw [on, off]; rfl)
    simp [alarmLamp, lit]

end

/-! ### O34 -/

theorem if_ne_eq (d X : Int) (a b : Reason) : (if d ≠ X then a else b) = if d = X then b else a := by
  by_cases h : d = X
  · rw [if_pos h, if_neg (not_not.mpr h)]
  · rw [if_neg h, if_pos h]

section
variable {p : Part} {H : Int} {why : Reason}

/-- D in ACTIVE, unlatched, by v_eff against P and P + M (R94 to R98). -/
theorem demandAt_unlatched (active : p.cab.state = .active) (unlatched : latchAfter p = false) :
    demandAt p = fourStages p := by
  rw [demandAt_active active, unlatched]
  rfl

theorem fourStages_below_eq (below : p.traction.vEff < permittedSpeed p)
    (ht : handleTarget p = { x := H, reason := why }) {X : Int}
    (hX : X = if 0 < H then min H (limits p).1 else max H (-(limits p).2)) :
    (fourStages p).x = (if p.traction.dPrev < X then min X (p.traction.dPrev + rampUp p)
        else if X < p.traction.dPrev then max X (p.traction.dPrev - rampDown p) else X)
      ∧ (fourStages p).reason = (if (fourStages p).x ≠ X then .ramp
        else if 0 < H ∧ (limits p).1 < H then .envelopeT
        else if H < -(limits p).2 then .envelopeB else why) := by
  have shaped := shape_eq (T := (limits p).1) { x := H, reason := why } (limits_nonneg p).2
  rw [← hX] at shaped
  rw [fourStages_below below, ht, show shape (limits p) _ = _ from shaped, ramp_none, if_ne_eq]
  exact ⟨rfl, rfl⟩

end

theorem target_eq {t : Target} {x : Int} {why : Reason} (h : t = { x := x, reason := why }) :
    t.x = x ∧ t.reason = why := by
  subst h
  exact ⟨rfl, rfl⟩

/-- Settles O34: the evaluation's inputs, stages and judgements each by their own rule. -/
theorem demandFollowsTheFourStages : Obligations.DemandFollowsTheFourStages := by
  intro p acts r P M v T B
  have hr : r = _ := evaluate_traction p
  clear_value r
  subst hr
  refine ⟨rfl, rfl, rfl, rfl, fun x hx fresh bit => ?_, fun clear => ?_, fun activating => ?_,
    fun hold => ?_, fun active latched => ?_, fun active unlatched H why fresh stale => ?_, fun active => ?_,
    judgements_stand, evaluate_flags p, judged_forced p, judged_envelope p, fun h x => ?_, ?_⟩
  · exact latchAfter_of_emergency ((emergencyActive_iff p).mpr ⟨x, hx, fresh, bit⟩)
  · have quiet : emergencyActive p = false := emergencyActive_eq_false clear
    exact ⟨fun ⟨x, hx, fresh, braking⟩ => latchAfter_reset quiet hx fresh braking, latchAfter_stands quiet⟩
  · exact target_eq (demandAt_activating activating)
  · exact target_eq (demandAt_hold hold)
  · have demand := demandAt_active active
    rw [show latchAfter p = true from latched] at demand
    exact target_eq demand
  · dsimp only
    have target : handleTarget p = { x := H, reason := why } := handleTarget_eq fresh stale
    rw [demandAt_unlatched active unlatched]
    refine ⟨fun h => target_eq (fourStages_forced h), fun above under off => ?_,
      fun below X hX => fourStages_below_eq below target hX⟩
    have cut := fourStages_cut above under off
    rw [target] at cut
    exact target_eq cut
  · refine ⟨alarmAfter_active active, fun invalid => ?_, fun below => episodeAfter_of_ends ⟨active, below⟩,
      fun _ unlatched => episodeAfter_reached active unlatched, episodeAfter_above⟩
    exact (evaluate_flags p _).mpr (.inr (.inr (.inr (.inl ⟨rfl, active, invalid⟩))))
  · refine judged_source (fun begins => ?_) x
    obtain ⟨off, on⟩ := episodeBegins_iff.mp begins
    rcases h with was | ended
    · exact absurd (off.symm.trans was) (by decide)
    · exact absurd (on.symm.trans ended) (by decide)
  · have frame := evaluate_frame p
    rw [evaluate_traction] at frame
    exact frame

end Sys2Proof.Machine
end

section
/-! ## The limits T and B (R90 to R93): O35 -/

namespace Sys2Proof.Machine

set_option Elab.async false

/-! ### Interpolation (R92) -/

/-- The term added to a rising limit, truncated: it does not pass the rise. -/
theorem tdiv_rise {rise place width : Int} (hr : 0 ≤ rise) (hp : 0 ≤ place) (hw : place < width) :
    0 ≤ (rise * place).tdiv width ∧ (rise * place).tdiv width ≤ rise := by
  have product : 0 ≤ rise * place := Int.mul_nonneg hr hp
  have bound : rise * place ≤ rise * width := Int.mul_le_mul_of_nonneg_left hw.le hr
  refine ⟨Int.tdiv_nonneg product (by omega), ?_⟩
  rw [Int.tdiv_eq_ediv_of_nonneg product]
  exact Int.ediv_le_of_le_mul (by omega) bound

/-- Between two breakpoints a limit lies between theirs. -/
theorem interpolate_between {v sa sb : Nat} (ha : sa ≤ v) (hb : v < sb) (la lb : Nat) :
    min (la : Int) lb ≤ interpolate v sa la sb lb ∧ interpolate v sa la sb lb ≤ max (la : Int) lb := by
  have place : 0 ≤ (v : Int) - sa := by omega
  have inside : (v : Int) - sa < (sb : Int) - sa := by omega
  unfold interpolate
  rcases Nat.le_total la lb with hle | hle
  · obtain ⟨low, high⟩ := tdiv_rise (rise := (lb : Int) - la) (by omega) place inside
    omega
  · have flip : ((lb : Int) - la) * ((v : Int) - sa) = -(((la : Int) - lb) * ((v : Int) - sa)) := by ring
    obtain ⟨low, high⟩ := tdiv_rise (rise := (la : Int) - lb) (by omega) place inside
    rw [flip, Int.neg_tdiv]
    omega

/-- At a breakpoint's speed the interpolation gives its limit. -/
theorem interpolate_start (s la sb lb : Nat) : interpolate s s la sb lb = la := by
  simp [interpolate]

/-! ### A region's breakpoints (R92) -/

theorem ascending_pairwise {bs : List Breakpoint} (h : ascending bs = true) :
    bs.Pairwise fun a b => a.s < b.s := by
  induction bs with
  | nil => exact .nil
  | cons a bs ih =>
    cases bs with
    | nil => exact List.pairwise_singleton _ a
    | cons b rest =>
      rw [ascending, Bool.and_eq_true, decide_eq_true_eq] at h
      obtain ⟨step, later⟩ := h
      have tail := ih later
      refine List.pairwise_cons.mpr ⟨fun c hc => ?_, tail⟩
      rcases List.mem_cons.mp hc with rfl | hc
      · exact step
      · exact step.trans ((List.pairwise_cons.mp tail).1 c hc)

section
variable {v : Nat} {a b : Breakpoint} {rest : List Breakpoint}

/-- At or below the first speed the first breakpoint's limits hold. -/
theorem limitsOver_first (h : v ≤ a.s) : limitsOver v (a :: rest) = ((a.t : Int), (a.b : Int)) := by
  cases rest with
  | nil => rfl
  | cons b rest => simp [limitsOver, h]

/-- From the second speed on the first breakpoint has no part in the limits. -/
theorem limitsOver_skip (order : a.s < b.s) (h : b.s ≤ v) :
    limitsOver v (a :: b :: rest) = limitsOver v (b :: rest) := by
  rw [limitsOver, if_neg (by omega), if_neg (by omega)]

theorem limitsOver_between (ha : a.s ≤ v) (hb : v < b.s) : limitsOver v (a :: b :: rest) =
    (interpolate v a.s a.t b.s b.t, interpolate v a.s a.b b.s b.b) := by
  rw [limitsOver]
  split
  · next h =>
    obtain rfl : v = a.s := Nat.le_antisymm h ha
    rw [interpolate_start, interpolate_start]
  · rfl

end

/-- At or above the last speed the last breakpoint's limits hold. -/
theorem limitsOver_last {v : Nat} {rest : List Breakpoint} {a : Breakpoint} (order : ascending (rest ++ [a]) = true)
    (h : a.s ≤ v) : limitsOver v (rest ++ [a]) = ((a.t : Int), (a.b : Int)) := by
  replace order := ascending_pairwise order
  induction rest with
  | nil => rfl
  | cons x rest ih =>
    obtain ⟨below, later⟩ := List.pairwise_cons.mp order
    cases rest with
    | nil =>
      exact (limitsOver_skip (below a (by simp)) h).trans (ih later)
    | cons y rest =>
      have last : y.s < a.s := (List.pairwise_cons.mp later).1 a (by simp)
      exact (limitsOver_skip (below y (by simp)) (by omega)).trans (ih later)

/-- Between two neighbours the limits are interpolated. -/
theorem limitsOver_neighbours {v : Nat} {bs : List Breakpoint} (order : ascending bs = true) {i : Nat}
    {a b : Breakpoint} (hi : bs[i]? = some a) (hj : bs[i + 1]? = some b) (ha : a.s ≤ v) (hb : v < b.s) :
    limitsOver v bs = (interpolate v a.s a.t b.s b.t, interpolate v a.s a.b b.s b.b) := by
  replace order := ascending_pairwise order
  induction i generalizing bs with
  | zero =>
    match bs, hi, hj with
    | x :: y :: rest, hi, hj =>
      obtain ⟨rfl, rfl⟩ : x = a ∧ y = b := ⟨Option.some.inj hi, Option.some.inj hj⟩
      exact limitsOver_between ha hb
  | succ i ih =>
    match bs, hi, hj with
    | x :: y :: rest, hi, hj =>
      obtain ⟨below, later⟩ := List.pairwise_cons.mp order
      have reached : y.s ≤ a.s := by
        cases i with
        | zero => exact (congrArg Breakpoint.s (Option.some.inj hi)).le
        | succ i => exact ((List.pairwise_cons.mp later).1 a (List.mem_of_getElem? hi)).le
      rw [limitsOver_skip (below y (by simp)) (by omega)]
      exact ih hi hj later

/-! ### Limits from 0 to 1000 -/

/-- Both limits of every breakpoint are at most 1000. -/
def LimitsInRange (bs : List Breakpoint) : Prop := ∀ a ∈ bs, a.t ≤ 1000 ∧ a.b ≤ 1000

theorem limitsOver_le {v : Nat} {bs : List Breakpoint} (h : LimitsInRange bs) :
    (limitsOver v bs).1 ≤ 1000 ∧ (limitsOver v bs).2 ≤ 1000 := by
  induction bs with
  | nil => exact ⟨by simp [limitsOver], by simp [limitsOver]⟩
  | cons a bs ih =>
    obtain ⟨⟨ta, ba⟩, later⟩ := List.forall_mem_cons.mp h
    cases bs with
    | nil => exact ⟨Int.ofNat_le.mpr ta, Int.ofNat_le.mpr ba⟩
    | cons b rest =>
      obtain ⟨⟨tb, bb⟩, -⟩ := List.forall_mem_cons.mp later
      rw [limitsOver]
      split
      · exact ⟨Int.ofNat_le.mpr ta, Int.ofNat_le.mpr ba⟩
      · next above =>
        split
        · next below =>
          have t := (interpolate_between (Nat.not_le.mp above).le below a.t b.t).2
          have b := (interpolate_between (Nat.not_le.mp above).le below a.b b.b).2
          exact ⟨by dsimp only; omega, by dsimp only; omega⟩
        · exact ih later

theorem breakpoints_inRange {ws : List Word} (h : ws.all (between 0 1000) = true) :
    LimitsInRange (breakpoints ws) := by
  rw [all_between_iff] at h
  induction ws using breakpoints.induct with
  | case1 s t b ws ih =>
    simp only [List.forall_mem_cons] at h
    obtain ⟨-, ht, hb, later⟩ := h
    exact List.forall_mem_cons.mpr ⟨⟨ht, hb⟩, ih later⟩
  | case2 ws short =>
    rw [breakpoints]
    · exact nofun
    · exact short

theorem breakpoints_length (ws : List Word) : (breakpoints ws).length = ws.length / 3 := by
  induction ws using breakpoints.induct with
  | case1 s t b ws ih =>
    simp only [breakpoints, List.length_cons, ih]
    omega
  | case2 ws short =>
    match ws, short with
    | [], _ => rfl
    | [_], _ => simp [breakpoints]
    | [_, _], _ => simp [breakpoints]
    | _ :: _ :: _ :: _, short => exact absurd rfl (short _ _ _ _)

section
variable {p : Part}

theorem TablesOk.breakpoints_length (h : TablesOk p) : (breakpoints p.tables.envelope.words).length = 16 := by
  obtain ⟨sizes, -⟩ := h
  rw [Machine.breakpoints_length, show p.tables.envelope.words.length = 48 from (sizes .envelope).1]

theorem TablesOk.used_length (h : TablesOk p) : (usedBreakpoints p).length = envelopeCount p := by
  have count : envelopeCount p ≤ 16 := (h.paramRange (i := 20) rfl).2
  rw [usedBreakpoints, List.length_take, h.breakpoints_length]
  omega

/-- With the mark set each region's speeds ascend (R91). -/
theorem TablesOk.regions_ascend (h : TablesOk p) (valid : p.tables.envelopeValid = true) :
    ascending (regionN p) = true ∧ ascending (regionL p) = true := by
  obtain ⟨-, -, -, -, -, -, -, mark, -⟩ := h
  have inOrder := (envelopeIsValid_iff p).mpr (mark.mp valid)
  simp only [envelopeIsValid, Bool.and_eq_true] at inOrder
  exact ⟨inOrder.1.2, inOrder.2⟩

theorem TablesOk.used_inRange (h : TablesOk p) : LimitsInRange (usedBreakpoints p) := by
  obtain ⟨-, -, words, -⟩ := h
  exact fun a ha => breakpoints_inRange words a (List.mem_of_mem_take ha)

theorem TablesOk.regions_inRange (h : TablesOk p) : LimitsInRange (regionN p) ∧ LimitsInRange (regionL p) := by
  have used := h.used_inRange
  unfold regionN regionL
  split
  · exact ⟨fun a ha => used a (List.mem_of_mem_take ha), fun a ha => used a (List.mem_of_mem_drop ha)⟩
  · exact ⟨used, nofun⟩

/-- With the tables in order T and B are at most 1000. -/
theorem TablesOk.limits_le (h : TablesOk p) : (limits p).1 ≤ 1000 ∧ (limits p).2 ≤ 1000 := by
  obtain ⟨rangeN, rangeL⟩ := h.regions_inRange
  unfold limits
  split
  · split
    · exact limitsOver_le rangeL
    · exact limitsOver_le rangeN
  · have traction : fallbackTraction p ≤ 300 := (h.paramRange (i := 22) rfl).2
    have brake : fallbackBrake p ≤ 1000 := (h.paramRange (i := 23) rfl).2
    exact ⟨by dsimp only; omega, by dsimp only; omega⟩

/-! ### The region used (R90, R93) -/

theorem lowRegionExists_iff (p : Part) :
    lowRegionExists p = true ↔ envelopeSplit p < 16 ∧ envelopeSplit p < envelopeCount p := by
  simp [lowRegionExists]

theorem regions_of_split (h : lowRegionExists p = true) :
    regionN p = (usedBreakpoints p).take (envelopeSplit p)
      ∧ regionL p = (usedBreakpoints p).drop (envelopeSplit p) := ⟨if_pos h, if_pos h⟩

theorem regionN_of_whole (h : lowRegionExists p = false) : regionN p = usedBreakpoints p :=
  if_neg (Bool.eq_false_iff.mp h)

theorem limits_low (valid : p.tables.envelopeValid = true) (low : lowRegionExists p = true)
    (on : p.traction.lowAdh.value = true) : limits p = limitsOver p.traction.vEff (regionL p) := by
  simp [limits, valid, low, on]

theorem limits_normal (valid : p.tables.envelopeValid = true)
    (h : p.traction.lowAdh.value = false ∨ lowRegionExists p = false) :
    limits p = limitsOver p.traction.vEff (regionN p) := by
  rcases h with h | h <;> simp [limits, valid, h]

theorem limits_fallback (invalid : p.tables.envelopeValid = false) :
    limits p = ((fallbackTraction p : Int), (fallbackBrake p : Int)) := by
  simp [limits, invalid]

end

/-! ### O35 -/

/-- Settles O35: over a region by its neighbours, and the region by the split and LOW_ADH. -/
theorem limitsInterpolateBetweenBreakpoints : Obligations.LimitsInterpolateBetweenBreakpoints := by
  refine ⟨fun v bs order => ⟨?_, ?_, fun i a b hi hj ha hb => ?_⟩, fun p => ?_⟩
  · rintro a rest rfl h
    exact limitsOver_first h
  · rintro rest a rfl h
    exact limitsOver_last order h
  · rw [limitsOver_neighbours order hi hj ha hb]
    obtain ⟨lowT, highT⟩ := interpolate_between ha hb a.t b.t
    obtain ⟨lowB, highB⟩ := interpolate_between ha hb a.b b.b
    exact ⟨rfl, lowT, highT, lowB, highB⟩
  · intro n k used
    refine ⟨fun valid => ⟨fun split count on => ?_, fun split count off => ?_, fun whole => ?_⟩,
      limits_fallback, fun ok => ?_⟩
    · have low : lowRegionExists p = true := (lowRegionExists_iff p).mpr ⟨split, count⟩
      obtain ⟨-, regionL⟩ := regions_of_split low
      refine ⟨(limits_low valid low on).trans (by rw [regionL]; rfl), fun ok => ?_⟩
      have ascend := (ok.regions_ascend valid).2
      rwa [regionL] at ascend
    · have low : lowRegionExists p = true := (lowRegionExists_iff p).mpr ⟨split, count⟩
      obtain ⟨regionN, -⟩ := regions_of_split low
      refine ⟨(limits_normal valid (.inl off)).trans (by rw [regionN]; rfl), fun ok => ⟨?_, ?_⟩⟩
      · have ascend := (ok.regions_ascend valid).1
        rwa [regionN] at ascend
      · rw [List.length_take, show used.length = n from ok.used_length]
        omega
    · have none : lowRegionExists p = false := by
        rw [← Bool.not_eq_true, lowRegionExists_iff]
        rintro ⟨split, count⟩
        rcases whole with h | h
        · exact absurd split (Nat.not_lt.mpr h)
        · exact absurd count (Nat.not_lt.mpr h)
      have regionN := regionN_of_whole none
      refine ⟨(limits_normal valid (.inr none)).trans (by rw [regionN]; rfl), fun ok => ⟨?_, ok.used_length⟩⟩
      have ascend := (ok.regions_ascend valid).1
      rwa [regionN] at ascend
    · obtain ⟨lowT, lowB⟩ := limits_nonneg p
      obtain ⟨highT, highB⟩ := ok.limits_le
      exact ⟨lowT, highT, lowB, highB⟩

end Sys2Proof.Machine
end

section
/-! ## The SPEED record, v_eff and the speed lock (R79, R82 to R86, R121): O32 -/

namespace Sys2Proof.Machine

set_option Elab.async false

/-! ### A distance at the records of the open junction list (R121, R123) -/

/-- What a distance delta leaves: all but the junction unit, the JUNCTION rows and RELEASE_LOST. -/
structure DistanceFrame (p q : Part) : Prop where
  traction : q.traction = p.traction
  cab : q.cab = p.cab
  stop : q.stop = p.stop
  slots : q.slots = p.slots
  tables : q.tables = p.tables
  line : q.line = p.line
  flags : ∀ f, f ≠ .releaseLost → hasFlag q.mgmt.flags f = hasFlag p.mgmt.flags f

namespace DistanceFrame

theorem refl (p : Part) : DistanceFrame p p := ⟨rfl, rfl, rfl, rfl, rfl, rfl, fun _ _ => rfl⟩

theorem trans {p q r : Part} (a : DistanceFrame p q) (b : DistanceFrame q r) : DistanceFrame p r :=
  ⟨b.traction.trans a.traction, b.cab.trans a.cab, b.stop.trans a.stop, b.slots.trans a.slots,
    b.tables.trans a.tables, b.line.trans a.line, fun f h => (b.flags f h).trans (a.flags f h)⟩

theorem ite {p a b : Part} {c : Prop} [Decidable c] (ha : DistanceFrame p a) (hb : DistanceFrame p b) :
    DistanceFrame p (if c then a else b) := by
  split
  · exact ha
  · exact hb

end DistanceFrame

theorem putOpen_distanceFrame (pos : Fin 4) (r : JunctionRecord) (p : Part) : DistanceFrame p (putOpen pos r p) :=
  ⟨rfl, rfl, rfl, rfl, rfl, rfl, fun _ _ => rfl⟩

theorem released_distanceFrame (r : JunctionRecord) (p : Part) : DistanceFrame p (released r p) := by
  unfold released appendRelease
  refine .ite (.ite ⟨rfl, rfl, rfl, rfl, rfl, rfl, fun _ _ => rfl⟩ ⟨rfl, rfl, rfl, rfl, rfl, rfl, fun f h => ?_⟩)
    (.refl p)
  simp [Ne.symm h]

theorem closeRecord_distanceFrame (pos : Fin 4) (r : JunctionRecord) (p : Part) :
    DistanceFrame p (closeRecord pos r p) := by
  rw [closeRecord_eq]
  exact (released_distanceFrame r p).trans ⟨rfl, rfl, rfl, rfl, rfl, rfl, fun _ _ => rfl⟩

theorem addDistance_distanceFrame (delta : Nat) (p : Part) (pos : Fin 4) :
    DistanceFrame p (addDistance delta p pos) := by
  unfold addDistance
  split
  · have added := fun r => putOpen_distanceFrame pos r p
    exact .ite (.ite ((added _).trans (closeRecord_distanceFrame _ _ _)) (added _)) (.refl p)
  · exact .refl p

/-- The record at a position of the open junction list, with the position's row. -/
def seat (p : Part) (pos : Fin 4) : Option JunctionRecord × Option Nat := (openAt p pos, p.caps.junctions[pos])

section
variable {p : Part} {pos pos' : Fin 4} {r : JunctionRecord}

theorem seat_putOpen_self : seat (putOpen pos r p) pos = (some r, p.caps.junctions[pos]) := by
  simp [seat]

theorem seat_putOpen_ne (h : pos ≠ pos') : seat (putOpen pos r p) pos' = seat p pos' := by
  simp [seat, openAt_putOpen_ne h]

theorem released_caps (r : JunctionRecord) (p : Part) : (released r p).caps = p.caps := by
  unfold released appendRelease
  split
  · split <;> rfl
  · rfl

theorem seat_released : seat (released r p) pos = seat p pos := by
  simp only [seat, openAt, released_list, released_caps]

theorem seat_closeRecord_self : seat (closeRecord pos r p) pos = (none, none) := by
  rw [closeRecord_eq]
  exact Prod.ext (by simp [seat]) (putRow_junction_self _ pos none)

theorem seat_closeRecord_ne (h : pos ≠ pos') : seat (closeRecord pos r p) pos' = seat p pos' := by
  rw [closeRecord_eq, ← seat_released (p := p) (r := r)]
  exact Prod.ext (by simp [seat, openAt, Fin.val_ne_of_ne h]) (putRow_junction_ne _ h none)

end

/-- What a delta makes of a position: a committed record gains it and closes at its release distance. -/
def seatAfter (delta : Nat) (p : Part) : Option JunctionRecord × Option Nat → Option JunctionRecord × Option Nat
  | (none, row) => (none, row)
  | (some r, row) =>
    if countsDistance r then
      if (routeEntry p r.junction).releaseDistance r.route ≤ min 65535 (r.distance + delta) then (none, none)
      else (some { r with distance := min 65535 (r.distance + delta) }, row)
    else (some r, row)

section
variable (delta : Nat) (p : Part)

theorem seat_addDistance_self (pos : Fin 4) :
    seat (addDistance delta p pos) pos = seatAfter delta p (seat p pos) := by
  unfold addDistance
  split
  · next r hr =>
    simp only [seat, hr, seatAfter]
    split
    · split
      · exact seat_closeRecord_self
      · exact seat_putOpen_self
    · exact Prod.ext hr rfl
  · next hr => simp only [seat, hr, seatAfter]

theorem seat_addDistance_ne {pos pos' : Fin 4} (h : pos ≠ pos') :
    seat (addDistance delta p pos) pos' = seat p pos' := by
  unfold addDistance
  split
  · split
    · dsimp only
      split
      · rw [seat_closeRecord_ne h, seat_putOpen_ne h]
      · exact seat_putOpen_ne h
    · rfl
  · rfl

theorem seatAfter_congr {q : Part} (h : q.tables = p.tables) : seatAfter delta q = seatAfter delta p := by
  have entries : routeEntry q = routeEntry p := by funext j; simp only [routeEntry, h]
  funext ⟨record, row⟩
  cases record with
  | none => rfl
  | some r => simp only [seatAfter, entries]

/-- Each position gains the delta once, whatever becomes of the others. -/
theorem seat_foldl_addDistance (xs : List (Fin 4)) (distinct : xs.Nodup) (pos : Fin 4) :
    seat (xs.foldl (addDistance delta) p) pos =
      if pos ∈ xs then seatAfter delta p (seat p pos) else seat p pos := by
  induction xs generalizing p with
  | nil => rfl
  | cons x xs ih =>
    obtain ⟨fresh, later⟩ := List.nodup_cons.mp distinct
    rw [List.foldl_cons, ih _ later, seatAfter_congr delta p (addDistance_distanceFrame delta p x).tables]
    by_cases here : pos = x
    · subst here
      rw [if_neg fresh, if_pos List.mem_cons_self, seat_addDistance_self]
    · rw [seat_addDistance_ne delta p (Ne.symm here)]
      simp only [List.mem_cons, here, false_or]

theorem takeDistance_distanceFrame : DistanceFrame p (takeDistance delta p) := by
  have each : ∀ (xs : List (Fin 4)) q, DistanceFrame q (xs.foldl (addDistance delta) q) := fun xs => by
    induction xs with
    | nil => exact .refl
    | cons x xs ih => exact fun q => (addDistance_distanceFrame delta q x).trans (ih _)
  exact .ite (.refl p) (each _ p)

theorem seat_takeDistance_pos (h : delta ≠ 0) (pos : Fin 4) :
    seat (takeDistance delta p) pos = seatAfter delta p (seat p pos) := by
  rw [takeDistance, if_neg h, seat_foldl_addDistance delta p _ (by decide), if_pos (mem_positions pos)]

end

theorem countsDistance_iff (r : JunctionRecord) :
    countsDistance r = true ↔ r.state = .committed ∨ r.state = .fault .commitUnconfirmed := by
  unfold countsDistance
  split <;> simp_all

/-! ### The SPEED store (R82, R86) -/

/-- The delta that reaches the junction unit: one above 1000 is dropped. -/
def takenDelta (delta : Nat) : Nat := if 1000 < delta then 0 else delta

/-- The part as a SPEED store hands the delta over. -/
def speedStored (r : SlotRecord) (p : Part) : Part :=
  let q := setFlagIf (decide (1000 < distanceDelta p.traction.prevDistance (wordAt r.payload 1))) .distJump
    (setFlagIf (decide (1000 < (wordAt r.payload 0).toNat)) .speedRange p)
  { q with traction := { q.traction with prevDistance := some (wordAt r.payload 1) } }

theorem speedStore_eq (r : SlotRecord) (p : Part) : speedStore r p =
    takeDistance (takenDelta (distanceDelta p.traction.prevDistance (wordAt r.payload 1))) (speedStored r p) := rfl

theorem distanceDelta_eq {previous : Option Word} {count : Word} {delta : Nat} (first : previous = none → delta = 0)
    (later : ∀ prev, previous = some prev → delta = (count - prev).toNat) :
    distanceDelta previous count = delta := by
  cases previous with
  | none => exact (first rfl).symm
  | some prev => exact (later prev rfl).symm

section
variable (x : SlotRecord) (p : Part) {f : Flag}

theorem speedStore_distanceFrame : DistanceFrame (speedStored x p) (speedStore x p) := by
  rw [speedStore_eq]
  exact takeDistance_distanceFrame _ _

/-- A store changes nothing of the cab, the stop unit, the records, the tables and the line. -/
theorem speedStore_frame : (speedStore x p).traction = { p.traction with prevDistance := some (wordAt x.payload 1) }
    ∧ (speedStore x p).cab = p.cab ∧ (speedStore x p).stop = p.stop ∧ (speedStore x p).slots = p.slots
    ∧ (speedStore x p).tables = p.tables ∧ (speedStore x p).line = p.line := by
  obtain ⟨traction, cab, stop, slots, tables, line, -⟩ := speedStore_distanceFrame x p
  exact ⟨traction, cab, stop, slots, tables, line⟩

theorem speedStore_flags (h : f ≠ .releaseLost) : hasFlag (speedStore x p).mgmt.flags f = true ↔
    (hasFlag p.mgmt.flags f = true ∨ (f = .speedRange ∧ 1000 < (wordAt x.payload 0).toNat))
      ∨ (f = .distJump ∧ 1000 < distanceDelta p.traction.prevDistance (wordAt x.payload 1)) := by
  rw [(speedStore_distanceFrame x p).flags f h]
  refine (hasFlag_setFlagIf _ .distJump f _).trans ((or_congr_left (hasFlag_setFlagIf _ .speedRange f p)).trans ?_)
  simp only [decide_eq_true_iff]

theorem seat_speedStore_none (h : takenDelta (distanceDelta p.traction.prevDistance (wordAt x.payload 1)) = 0)
    (pos : Fin 4) : seat (speedStore x p) pos = seat p pos := by
  rw [speedStore_eq, h]
  rfl

theorem seat_speedStore_pos (h : takenDelta (distanceDelta p.traction.prevDistance (wordAt x.payload 1)) ≠ 0)
    (pos : Fin 4) : seat (speedStore x p) pos =
      seatAfter (takenDelta (distanceDelta p.traction.prevDistance (wordAt x.payload 1))) p (seat p pos) := by
  rw [speedStore_eq, seat_takeDistance_pos _ _ h]
  rfl

end

/-! ### v_eff and the speed lock (R82 to R85) -/

theorem speedFresh_iff (p : Part) :
    speedFresh p = true ↔ ∃ x, fnRecord p .speed = some x ∧ x.age ≤ speedStale p :=
  freshWithin_iff p .speed _

section
variable {p : Part}

theorem speedInput_suspended (h : p.traction.suspended = true) : speedInput p = p := if_pos h

theorem speedInput_fresh (h : p.traction.suspended = false) {x : SlotRecord} (hx : fnRecord p .speed = some x)
    (age : x.age ≤ speedStale p) : speedInput p = updateLock { p with
      traction := { p.traction with vEff := min 1000 (wordAt x.payload 0).toNat } } := by
  have fresh : speedFresh p = true := (speedFresh_iff p).mpr ⟨x, hx, age⟩
  rw [speedInput, h, updateSpeed, fresh, fnWord_of_record hx]
  rfl

theorem speedInput_stale (h : p.traction.suspended = false) (stale : speedFresh p = false) :
    speedInput p = updateLock p := by
  rw [speedInput, h, updateSpeed, stale]
  rfl

theorem updateLock_locked (h : p.traction.locked = true) :
    updateLock p = if speedFresh p then p else speedGoesStale p := if_pos h

theorem updateLock_unlocked_stale (h : p.traction.locked = false) (stale : speedFresh p = false) :
    updateLock p = { p with traction := { p.traction with lockCount := 0 } } := by
  rw [updateLock, h, stale]
  rfl

/-- An UNLOCKED lock counts a fresh record, to 15 at most, and locks at lock_count (R83). -/
theorem updateLock_unlocked_fresh (active : p.traction.suspended = false) (h : p.traction.locked = false)
    (fresh : speedFresh p = true) : updateLock p =
      if lockCountNeeded p ≤ min 15 (p.traction.lockCount + 1) then
        speedLocks { p with traction := { p.traction with lockCount := min 15 (p.traction.lockCount + 1) } }
      else { p with traction := { p.traction with lockCount := min 15 (p.traction.lockCount + 1) } } := by
  have due : speedLockIsDue { p with
      traction := { p.traction with lockCount := min 15 (p.traction.lockCount + 1) } } =
      decide (lockCountNeeded p ≤ min 15 (p.traction.lockCount + 1)) := by
    show (!p.traction.suspended && !p.traction.locked && speedFresh p
      && decide (lockCountNeeded p ≤ min 15 (p.traction.lockCount + 1))) = _
    rw [active, h, fresh]
    rfl
  rw [updateLock, h, fresh]
  simp only [due, decide_eq_true_iff, if_true, Bool.false_eq_true, if_false]

theorem speedGoesStale_eq (p : Part) : speedGoesStale p = { p with
    traction := { p.traction with locked := false, lockCount := 0 }
    caps := if cabActs p then { p.caps with speedLock := some (creepCap p) } else p.caps } := by
  unfold speedGoesStale setLockRow
  cases h : cabActs p with
  | false => exact if_neg fun on => absurd (h.symm.trans on) (by decide)
  | true => exact if_pos h

end

section
variable {s : State}

theorem exec_speedSourceStale_suspended (h : s.part.traction.suspended = true) :
    exec .speedSourceStale s = .next s := when_false (by simp [speedLockIsLost, h])

theorem exec_speedLockAcquired_suspended (h : s.part.traction.suspended = true) :
    exec .speedLockAcquired s = .next s := when_false (by simp [speedLockIsDue, h])

theorem exec_speedSourceStale_lost (active : s.part.traction.suspended = false) (h : s.part.traction.locked = true)
    (stale : speedFresh s.part = false) :
    exec .speedSourceStale s = .next { s with part := speedGoesStale s.part } :=
  when_true (by simp [speedLockIsLost, active, h, stale])

theorem exec_speedLockAcquired_due (active : s.part.traction.suspended = false)
    (h : s.part.traction.locked = false) (fresh : speedFresh s.part = true)
    (counted : lockCountNeeded s.part ≤ s.part.traction.lockCount) :
    exec .speedLockAcquired s = .next { s with part := speedLocks s.part } :=
  when_true (by simp [speedLockIsDue, active, h, fresh, counted])

end

/-! ### O32 -/

section
variable {delta : Nat} {p : Part} {r : JunctionRecord} {row : Option Nat}

theorem seatAfter_uncounted (h : ¬ (r.state = .committed ∨ r.state = .fault .commitUnconfirmed)) :
    seatAfter delta p (some r, row) = (some r, row) :=
  if_neg fun counts => h ((countsDistance_iff r).mp counts)

theorem seatAfter_gains (h : r.state = .committed ∨ r.state = .fault .commitUnconfirmed)
    (short : min 65535 (r.distance + delta) < (routeEntry p r.junction).releaseDistance r.route) :
    seatAfter delta p (some r, row) = (some { r with distance := min 65535 (r.distance + delta) }, row) :=
  (if_pos ((countsDistance_iff r).mpr h)).trans (if_neg (Nat.not_le.mpr short))

theorem seatAfter_closes (h : r.state = .committed ∨ r.state = .fault .commitUnconfirmed)
    (reached : (routeEntry p r.junction).releaseDistance r.route ≤ min 65535 (r.distance + delta)) :
    seatAfter delta p (some r, row) = (none, none) :=
  (if_pos ((countsDistance_iff r).mpr h)).trans (if_pos reached)

theorem seat_eq_iff {pos : Fin 4} {record : Option JunctionRecord} :
    seat p pos = (record, row) ↔ openAt p pos = record ∧ p.caps.junctions[pos] = row := by
  rw [seat, Prod.mk.injEq]

theorem seat_of_openAt {pos : Fin 4} {record : Option JunctionRecord} (h : openAt p pos = record) :
    seat p pos = (record, p.caps.junctions[pos]) := seat_eq_iff.mpr ⟨h, rfl⟩

end

section
variable {x : SlotRecord} {p : Part} {delta : Nat} (pos : Fin 4)

/-- A delta of 0 or above 1000 changes no position. -/
theorem seat_speedStore_dropped (hd : distanceDelta p.traction.prevDistance (wordAt x.payload 1) = delta)
    (h : delta = 0 ∨ 1000 < delta) : seat (speedStore x p) pos = seat p pos := by
  refine seat_speedStore_none x p ?_ pos
  rw [hd, takenDelta]
  split <;> omega

theorem seat_speedStore_taken (hd : distanceDelta p.traction.prevDistance (wordAt x.payload 1) = delta)
    (low : 0 < delta) (high : delta ≤ 1000) :
    seat (speedStore x p) pos = seatAfter delta p (seat p pos) := by
  have taken : takenDelta delta = delta := if_neg (by omega)
  have moved := seat_speedStore_pos x p (pos := pos)
  rw [hd, taken] at moved
  exact moved (by omega)

/-- Where no delta counts, a position stands. -/
theorem seat_speedStore_stands (hd : distanceDelta p.traction.prevDistance (wordAt x.payload 1) = delta)
    {record : Option JunctionRecord} (hr : openAt p pos = record)
    (h : delta = 0 ∨ 1000 < delta
      ∨ ∀ r, record = some r → r.state ≠ .committed ∧ r.state ≠ .fault .commitUnconfirmed) :
    openAt (speedStore x p) pos = record ∧ (speedStore x p).caps.junctions[pos] = p.caps.junctions[pos] := by
  rw [← seat_eq_iff]
  by_cases taken : 0 < delta ∧ delta ≤ 1000
  · obtain ⟨low, high⟩ := taken
    rw [seat_speedStore_taken pos hd low high, seat_of_openAt hr]
    cases record with
    | none => rfl
    | some r =>
      have state := (h.resolve_left (by omega)).resolve_left (by omega) r rfl
      exact seatAfter_uncounted (not_or.mpr state)
  · rw [seat_speedStore_dropped pos hd (by omega), seat_of_openAt hr]

end

/-- The traction unit's work in INACTIVE, with the supervision NORMAL (R79, R85). -/
theorem doWork_traction_inactive {cs : CycleStart} {p sensed : Part} (hs : sensed = { p with
      traction := { p.traction with lowAdh := sampled p.traction.lowAdh p.lines.lowAdh } })
    (inactive : p.cab.state = .inactive) (normal : p.traction.suspended = false) :
    doWork cs .traction p = if cs.suspended then sensed else speedInput sensed := by
  have notActive : p.cab.state ≠ .active := by rw [inactive]; decide
  have idle : ∀ q : Part, q.cab = p.cab → cabActs q = false := fun q same =>
    cabActs_eq_false (.inl (by rw [same, inactive]))
  have sensedCab : sensed.cab = p.cab := by rw [hs]
  show tractionCycle cs p = _
  cases torn : cs.suspended with
  | true =>
    rw [tractionCycle_eq (q := sensed) hs (fun _ => rfl) (by simp [torn, normal, notActive]), idle _ sensedCab]
    rfl
  | false =>
    have cab : (speedInput sensed).cab = p.cab := (speedInput_cabFrame sensed).cab.trans sensedCab
    rw [tractionCycle_eq (q := speedInput sensed) hs (by simp [torn]) (fun _ => rfl), idle _ cab]
    rfl

/-- Settles O32: the store by what it makes of each position, the lock by its two states. -/
theorem speedLockFollowsTheRecord : Obligations.SpeedLockFollowsTheRecord := by
  refine ⟨?_, fun p => ⟨speedInput_suspended, fun active => ⟨?_, ?_⟩, speedFresh_iff p⟩,
    fun cs p sensed hs => ⟨rfl, fun inactive normal => ?_⟩,
    fun s suspended => ⟨exec_speedSourceStale_suspended suspended, exec_speedLockAcquired_suspended suspended⟩,
    fun s active => ⟨fun locked stale => ?_, fun unlocked fresh counted => ?_, fun locked fresh => ?_,
      updateLock_unlocked_stale, updateLock_unlocked_fresh active⟩⟩
  · intro i kind x p delta first later q
    have hd : distanceDelta p.traction.prevDistance (wordAt x.payload 1) = delta := distanceDelta_eq first later
    obtain ⟨traction, cab, stop, slots, tables, line⟩ := speedStore_frame x p
    have range := speedStore_flags x p (f := .speedRange) (by decide)
    have jump := speedStore_flags x p (f := .distJump) (by decide)
    rw [hd] at jump
    refine ⟨traction, fun above => range.mpr (.inl (.inr ⟨rfl, above⟩)), fun above => jump.mpr (.inr ⟨rfl, above⟩),
      fun within => ?_, fun within => ?_, fun pos closed => seat_speedStore_stands pos hd closed (by simp),
      fun pos r hr => ⟨fun h => seat_speedStore_stands pos hd hr (by simpa using h), fun low high counts => ?_⟩,
      cab, stop, slots, tables, line⟩
    · exact Bool.eq_iff_iff.mpr (range.trans (by simp [Nat.not_lt.mpr within]))
    · exact Bool.eq_iff_iff.mpr (jump.trans (by simp [Nat.not_lt.mpr within]))
    · have moved := seat_speedStore_taken pos hd low high
      rw [seat_of_openAt hr] at moved
      exact ⟨fun short => seat_eq_iff.mp (moved.trans (seatAfter_gains counts short)),
        fun reached => seat_eq_iff.mp (moved.trans (seatAfter_closes counts reached))⟩
  · exact fun x => speedInput_fresh active
  · exact fun stale => speedInput_stale active ((freshWithin_eq_false p .speed _).mpr stale)
  · have work := doWork_traction_inactive (cs := cs) hs inactive normal
    exact ⟨fun torn => by rw [work, torn]; rfl, fun kept => by rw [work, kept]; rfl⟩
  · have lost := updateLock_locked locked
    rw [stale] at lost
    have event := exec_speedSourceStale_lost active locked stale
    exact ⟨by rw [lost]; exact event, by rw [event, speedGoesStale_eq]⟩
  · exact exec_speedLockAcquired_due active unlocked fresh counted
  · exact (updateLock_locked locked).trans (by rw [fresh]; rfl)

end Sys2Proof.Machine
end

section
/-! ## The junction unit's work at one position of the open junction list (R110, R111, R115, R116)

`ActsAt pos p q` says that from `p` to `q` the junction unit has worked on the record and the row of one
position. Work taken over the positions in turn meets each of them as it found it (`foldl_visits`). -/

namespace Sys2Proof.Machine

set_option Elab.async false

/-! ### What stands (R112, R118) -/

/-- From `p` to `q` at most records have changed, with their rows, flags that were set and ALARM requested. -/
structure ListFrame (p q : Part) : Prop where
  junction : q.junction = { p.junction with list := q.junction.list }
  line : q.line = p.line
  slots : q.slots = p.slots
  cab : q.cab = p.cab
  traction : q.traction = p.traction
  stop : q.stop = p.stop
  tables : q.tables = p.tables
  responses : q.mgmt.queue = p.mgmt.queue
  flags : ∀ f, hasFlag p.mgmt.flags f = true → hasFlag q.mgmt.flags f = true
  alarm : p.sound.alarm.state ≠ .idle → q.sound.alarm.state ≠ .idle

namespace ListFrame

theorem refl (p : Part) : ListFrame p p := ⟨rfl, rfl, rfl, rfl, rfl, rfl, rfl, rfl, fun _ => id, id⟩

theorem trans {p q r : Part} (a : ListFrame p q) (b : ListFrame q r) : ListFrame p r where
  junction := by
    have h := b.junction
    rw [a.junction] at h
    exact h
  line := b.line.trans a.line
  slots := b.slots.trans a.slots
  cab := b.cab.trans a.cab
  traction := b.traction.trans a.traction
  stop := b.stop.trans a.stop
  tables := b.tables.trans a.tables
  responses := b.responses.trans a.responses
  flags f := b.flags f ∘ a.flags f
  alarm := b.alarm ∘ a.alarm

variable {p q : Part}

theorem queue (h : ListFrame p q) : q.junction.queue = p.junction.queue := by rw [h.junction]

theorem arbiter (h : ListFrame p q) : q.junction.arbiter = p.junction.arbiter := by rw [h.junction]

theorem selection (h : ListFrame p q) : q.junction.selection = p.junction.selection := by rw [h.junction]

theorem selectionFrom (h : ListFrame p q) : q.junction.selectionFrom = p.junction.selectionFrom := by
  rw [h.junction]

theorem routeEntry (h : ListFrame p q) (j : Six) : routeEntry q j = routeEntry p j := by
  simp only [Machine.routeEntry, h.tables]

theorem cabLive (h : ListFrame p q) : cabLive q = cabLive p := by simp only [Machine.cabLive, h.cab]

end ListFrame

/-- An alarm once requested sounds on through a further request (R152). -/
theorem request_alarm_listFrame (p : Part) : ListFrame p (request .alarm p) where
  junction := rfl
  line := rfl
  slots := rfl
  cab := rfl
  traction := rfl
  stop := rfl
  tables := rfl
  responses := rfl
  flags _ := id
  alarm h := by rwa [request_of_not_idle (x := .alarm) h]

theorem setFlag_listFrame (f : Flag) (p : Part) : ListFrame p (setFlag f p) where
  junction := rfl
  line := rfl
  slots := rfl
  cab := rfl
  traction := rfl
  stop := rfl
  tables := rfl
  responses := rfl
  flags g h := by simp [h]
  alarm := id

/-- From `p` to `q` the junction unit has worked on one position. -/
structure ActsAt (pos : Fin 4) (p q : Part) : Prop where
  frame : ListFrame p q
  others : ∀ pos', pos ≠ pos' → seat q pos' = seat p pos'

namespace ActsAt

variable {pos : Fin 4}

theorem refl (p : Part) : ActsAt pos p p := ⟨.refl p, fun _ _ => rfl⟩

theorem trans {p q r : Part} (a : ActsAt pos p q) (b : ActsAt pos q r) : ActsAt pos p r :=
  ⟨a.frame.trans b.frame, fun pos' h => (b.others pos' h).trans (a.others pos' h)⟩

theorem ite {p a b : Part} {c : Prop} [Decidable c] (ha : ActsAt pos p a) (hb : ActsAt pos p b) :
    ActsAt pos p (if c then a else b) := by
  split
  · exact ha
  · exact hb

end ActsAt

section
variable (pos : Fin 4) (p : Part)

theorem putOpen_actsAt (r : JunctionRecord) : ActsAt pos p (putOpen pos r p) :=
  ⟨⟨rfl, rfl, rfl, rfl, rfl, rfl, rfl, rfl, fun _ => id, id⟩, fun _ h => seat_putOpen_ne h⟩

theorem setRow_actsAt (v : Nat) : ActsAt pos p (setRow (.junction pos) v p) :=
  ⟨⟨rfl, rfl, rfl, rfl, rfl, rfl, rfl, rfl, fun _ => id, id⟩,
    fun _ h => Prod.ext rfl (putRow_junction_ne _ h (some v))⟩

theorem setFlag_actsAt (f : Flag) : ActsAt pos p (setFlag f p) := ⟨setFlag_listFrame f p, fun _ _ => rfl⟩

theorem request_alarm_actsAt : ActsAt pos p (request .alarm p) :=
  ⟨request_alarm_listFrame p, fun _ _ => by rw [request_chime_eq (x := .alarm) rfl]; rfl⟩

theorem enterFault_actsAt (r : JunctionRecord) (cause : JunctionFault) :
    ActsAt pos p (enterFault pos r cause p) :=
  ((putOpen_actsAt pos p _).trans (setRow_actsAt pos _ 0)).trans (request_alarm_actsAt pos _)

end

/-! ### The positions in turn -/

section
variable {f : Part → Fin 4 → Part} (hf : ∀ p pos, ActsAt pos p (f p pos))
include hf

theorem foldl_listFrame (xs : List (Fin 4)) (p : Part) : ListFrame p (xs.foldl f p) := by
  induction xs generalizing p with
  | nil => exact .refl p
  | cons x xs ih => exact (hf p x).frame.trans (ih _)

/-- A position that is not among those worked on stands. -/
theorem foldl_elsewhere {xs : List (Fin 4)} {pos : Fin 4} (h : pos ∉ xs) (p : Part) :
    seat (xs.foldl f p) pos = seat p pos := by
  induction xs generalizing p with
  | nil => rfl
  | cons x xs ih =>
    obtain ⟨here, later⟩ := not_or.mp (mt List.mem_cons.mpr h)
    exact (ih later _).trans ((hf p x).others pos (Ne.symm here))

/-- Each position is met once, as it stood at the beginning, and stands after that. -/
theorem foldl_visits {xs : List (Fin 4)} (distinct : xs.Nodup) {pos : Fin 4} (h : pos ∈ xs) (p : Part) :
    ∃ q, ListFrame p q ∧ seat q pos = seat p pos ∧ ListFrame (f q pos) (xs.foldl f p)
      ∧ seat (xs.foldl f p) pos = seat (f q pos) pos := by
  induction xs generalizing p with
  | nil => exact absurd h List.not_mem_nil
  | cons x xs ih =>
    obtain ⟨fresh, later⟩ := List.nodup_cons.mp distinct
    by_cases here : pos = x
    · subst here
      exact ⟨p, .refl p, rfl, foldl_listFrame hf xs _, foldl_elsewhere hf fresh _⟩
    · obtain ⟨q, before, met, after, stands⟩ := ih later ((List.mem_cons.mp h).resolve_left here) (f p x)
      exact ⟨q, (hf p x).frame.trans before, met.trans ((hf p x).others pos (Ne.symm here)), after, stands⟩

theorem positions_visits (pos : Fin 4) (p : Part) :
    ∃ q, ListFrame p q ∧ seat q pos = seat p pos ∧ ListFrame (f q pos) (positions.foldl f p)
      ∧ seat (positions.foldl f p) pos = seat (f q pos) pos :=
  foldl_visits hf (by decide) (mem_positions pos) p

end

theorem openAt_of_seat {p q : Part} {pos : Fin 4} (h : seat q pos = seat p pos) :
    openAt q pos = openAt p pos := congrArg Prod.fst h

/-! ### A record that enters FAULT (R111, R112) -/

theorem cabActs_of_cabLive {p : Part} (h : cabLive p = true) : cabActs p = true := by
  unfold cabLive at h
  unfold cabActs
  split at h
  · next hs => rw [hs]
  · next hs => rw [hs]
  all_goals cases h

section
variable (pos : Fin 4) (r : JunctionRecord) (cause : JunctionFault) (p : Part)

/-- A record that enters FAULT takes the list, its row and the sound unit with it, and nothing else. -/
theorem enterFault_eq : enterFault pos r cause p = { p with
    junction := { p.junction with
      list := p.junction.list.set pos (some { r with state := .fault cause, count := 0, confirmed := 0 }) }
    caps := { p.caps with junctions := p.caps.junctions.set pos (some 0) }
    sound := (enterFault pos r cause p).sound } := by
  unfold enterFault
  rw [request_chime_eq (x := .alarm) rfl]
  rfl

theorem seat_enterFault : seat (enterFault pos r cause p) pos =
    (some { r with state := .fault cause, count := 0, confirmed := 0 }, some 0) := by
  rw [enterFault_eq, seat]
  simp [openAt]

/-- ALARM is requested (R160). -/
theorem enterFault_alarm (acts : cabActs p = true) (steps : (patternOf p.tables.cadence.words .alarm).steps ≠ 0) :
    (enterFault pos r cause p).sound.alarm.state ≠ .idle :=
  request_notIdle (x := .alarm) (by exact acts) steps

/-- The junction fault condition holds from then on (R112, R164). -/
theorem enterFault_lamp (held : p.sound.junctionFault = anyFault p.junction.list) :
    (enterFault pos r cause p).sound.junctionFault = true ∧ alarmLamp (enterFault pos r cause p) = true := by
  have lit : (enterFault pos r cause p).sound.junctionFault = true := by
    refine (requestSource_desk _ _ .alarm _).junctionFault.trans ((faultCondition_eq held).trans ?_)
    exact (anyFault_iff _).mpr ⟨pos, by simp [inFault]⟩
  exact ⟨lit, by rw [alarmLamp, lit]; rfl⟩

end

end Sys2Proof.Machine
end

section
/-! ## The request arbiter (R125): O38 -/

namespace Sys2Proof.Machine

set_option Elab.async false

section
variable {p : Part}

theorem nextItem_release {x : Release} {xs : List Release} (h : p.junction.queue = x :: xs) :
    nextItem p = ({ p with junction := { p.junction with queue := xs } }, some (releaseWords x)) := by
  simp [nextItem, h]

/-- With no RELEASE waiting the search decides. -/
theorem nextItem_set (empty : p.junction.queue = []) {pos : Fin 4}
    (found : (searchFrom p.junction.arbiter).find? (isRequested p) = some pos) :
    nextItem p = giveSet pos p := by
  simp [nextItem, empty, found]

theorem nextItem_idle (empty : p.junction.queue = [])
    (found : (searchFrom p.junction.arbiter).find? (isRequested p) = none) : nextItem p = (p, none) := by
  simp [nextItem, empty, found]

/-- The search meets every position. -/
theorem searchFrom_none (h : ∀ pos, isRequested p pos = false) (start : Fin 4) :
    (searchFrom start).find? (isRequested p) = none := by
  simp [List.find?_eq_none, h]

theorem searchFrom_getElem (start k : Fin 4) : (searchFrom start)[k.val]'k.isLt = start + k := by
  revert start k
  decide

/-- The search stops at the first REQUESTED record from the position on. -/
theorem searchFrom_first {start k : Fin 4} (before : ∀ j : Fin 4, j < k → isRequested p (start + j) = false)
    (here : isRequested p (start + k) = true) :
    (searchFrom start).find? (isRequested p) = some (start + k) := by
  refine List.find?_eq_some_iff_getElem.mpr ⟨here, k.val, k.isLt, searchFrom_getElem start k, fun j hj => ?_⟩
  have passed := before ⟨j, hj.trans k.isLt⟩ hj
  rw [← searchFrom_getElem] at passed
  exact (Bool.not_eq_true' _).mpr passed

theorem giveSet_open {pos : Fin 4} {r : JunctionRecord} (h : openAt p pos = some r) :
    giveSet pos p = ({ putOpen pos { r with setSent := true } p with
        junction := { p.junction with
          list := p.junction.list.set pos (some { r with setSent := true })
          arbiter := pos + 1 } },
      some (setWords (routeEntry p r.junction) r)) := by
  simp only [giveSet, h]
  rfl

end

/-- Settles O38: the queue, then what the search finds. -/
theorem arbiterServesReleasesFirst : Obligations.ArbiterServesReleasesFirst := by
  intro p
  refine ⟨fun x xs => nextItem_release, fun empty idle => nextItem_idle empty (searchFrom_none idle _),
    fun k pos r empty start before opened requested => ?_⟩
  subst start
  have here : isRequested p (p.junction.arbiter + k) = true := by simp [isRequested, opened, requested]
  have given := (nextItem_set empty (searchFrom_first before here)).trans (giveSet_open opened)
  rw [given]
  exact ⟨rfl, rfl, rfl, rfl⟩

end Sys2Proof.Machine
end

section
/-! ## The route selection and the open records (R108, R109, R115): O36 -/

namespace Sys2Proof.Machine

set_option Elab.async false

/-- A selection restarts the request of a record: the effective route is another one, is defined, and the
record is not committed (R115). -/
def Restarts (selection : BitVec 4) (e : RouteEntry) (r : JunctionRecord) : Prop :=
  e.effective selection ≠ r.route ∧ countsDistance r = false ∧ (e.route? (e.effective selection)).isSome = true

/-- The record of a request that begins again with a route. -/
def requestedAnew (route : BitVec 4) (r : JunctionRecord) : JunctionRecord :=
  { r with route := route, state := .requested, count := 0, confirmed := 0 }

/-! ### One open record -/

section
variable {p : Part} {pos : Fin 4} {r : JunctionRecord}

theorem selectFor_none (h : openAt p pos = none) : selectFor p pos = p := by
  simp [selectFor, h]

/-- The states that keep their route are those that count distance (R115, R121). -/
theorem selectFor_open (h : openAt p pos = some r) : selectFor p pos =
    if (routeEntry p r.junction).effective p.junction.selection = r.route then p
    else if countsDistance r then setFlag .routeLocked p
    else if ((routeEntry p r.junction).route?
        ((routeEntry p r.junction).effective p.junction.selection)).isSome then
      setRow (.junction pos) (routeEntry p r.junction).unconfirmed
        (putOpen pos (requestedAnew ((routeEntry p r.junction).effective p.junction.selection) r) p)
    else p := by
  simp only [selectFor, h]
  obtain ⟨junction, route, state, -, -, -, -⟩ := r
  cases state with
  | fault cause => cases cause <;> rfl
  | _ => rfl

theorem selectFor_same (h : openAt p pos = some r)
    (same : (routeEntry p r.junction).effective p.junction.selection = r.route) : selectFor p pos = p := by
  rw [selectFor_open h, if_pos same]

theorem selectFor_locked (h : openAt p pos = some r)
    (other : (routeEntry p r.junction).effective p.junction.selection ≠ r.route)
    (counts : countsDistance r = true) : selectFor p pos = setFlag .routeLocked p := by
  rw [selectFor_open h, if_neg other, if_pos counts]

theorem selectFor_undefined (h : openAt p pos = some r) (counts : countsDistance r = false)
    (undefined : ¬ Restarts p.junction.selection (routeEntry p r.junction) r) : selectFor p pos = p := by
  rw [selectFor_open h, counts]
  split
  · rfl
  · next other => exact if_neg fun defined => undefined ⟨other, counts, defined⟩

theorem selectFor_restarts (h : openAt p pos = some r)
    (restarts : Restarts p.junction.selection (routeEntry p r.junction) r) : selectFor p pos =
      setRow (.junction pos) (routeEntry p r.junction).unconfirmed
        (putOpen pos (requestedAnew ((routeEntry p r.junction).effective p.junction.selection) r) p) := by
  obtain ⟨other, counts, defined⟩ := restarts
  rw [selectFor_open h, if_neg other, counts, if_pos defined]
  rfl

theorem selectFor_actsAt (p : Part) (pos : Fin 4) : ActsAt pos p (selectFor p pos) := by
  cases h : openAt p pos with
  | none => rw [selectFor_none h]; exact .refl p
  | some r =>
    rw [selectFor_open h]
    exact .ite (.refl p) (.ite (setFlag_actsAt pos p _)
      (.ite ((putOpen_actsAt pos p _).trans (setRow_actsAt pos _ _)) (.refl p)))

theorem seat_selectFor_restarts (h : openAt p pos = some r)
    (restarts : Restarts p.junction.selection (routeEntry p r.junction) r) :
    seat (selectFor p pos) pos = (some (requestedAnew ((routeEntry p r.junction).effective p.junction.selection) r),
      some (routeEntry p r.junction).unconfirmed) := by
  rw [selectFor_restarts h restarts]
  exact Prod.ext (openAt_putOpen_self pos _ p) (putRow_junction_self _ pos _)

theorem seat_selectFor_stands (h : openAt p pos = some r)
    (stands : ¬ Restarts p.junction.selection (routeEntry p r.junction) r) :
    seat (selectFor p pos) pos = seat p pos := by
  cases counts : countsDistance r with
  | false => rw [selectFor_undefined h counts stands]
  | true =>
    by_cases same : (routeEntry p r.junction).effective p.junction.selection = r.route
    · rw [selectFor_same h same]
    · rw [selectFor_locked h same counts]
      rfl

/-- No committed record, no ROUTE_LOCKED. -/
theorem selectFor_flags (h : ∀ r, openAt p pos = some r → countsDistance r = false) :
    (selectFor p pos).mgmt.flags = p.mgmt.flags := by
  cases opened : openAt p pos with
  | none => rw [selectFor_none opened]
  | some r =>
    by_cases restarts : Restarts p.junction.selection (routeEntry p r.junction) r
    · rw [selectFor_restarts opened restarts]
      rfl
    · rw [selectFor_undefined opened (h r opened) restarts]

end

theorem foldl_selectFor_flags {xs : List (Fin 4)} (distinct : xs.Nodup) {p : Part}
    (h : ∀ pos ∈ xs, ∀ r, openAt p pos = some r → countsDistance r = false) :
    (xs.foldl selectFor p).mgmt.flags = p.mgmt.flags := by
  induction xs generalizing p with
  | nil => rfl
  | cons x xs ih =>
    obtain ⟨fresh, later⟩ := List.nodup_cons.mp distinct
    refine (ih later fun pos hpos r hr => h pos (List.mem_cons_of_mem _ hpos) r ?_).trans
      (selectFor_flags (h x List.mem_cons_self))
    have apart : x ≠ pos := fun same => fresh (same ▸ hpos)
    exact (openAt_of_seat ((selectFor_actsAt p x).others pos apart)).symm.trans hr

/-! ### The selection -/

/-- A selection stored, with the entry that gave it. -/
def withSelection (selection : BitVec 4) (source : Option (Fin 82)) (p : Part) : Part :=
  { p with junction := { p.junction with selection := selection, selectionFrom := source } }

theorem select_stored (selection : BitVec 4) (source : Option (Fin 82)) (p : Part) :
    select selection (withSelection p.junction.selection source p) =
      if selection = p.junction.selection ∨ cabLive p = false then withSelection selection source p
      else positions.foldl selectFor (withSelection selection source p) := rfl

/-- In ACTIVE and HOLD every open record takes a changed selection (R115). -/
theorem selectionTaken_withSelection (selection : BitVec 4) (source : Option (Fin 82)) (p : Part) :
    SelectionTaken selection p (positions.foldl selectFor (withSelection selection source p)) := by
  have frame : ListFrame (withSelection selection source p) _ := foldl_listFrame selectFor_actsAt positions _
  have visits := fun pos => positions_visits selectFor_actsAt pos (withSelection selection source p)
  have flags := foldl_selectFor_flags (xs := positions) (by decide) (p := withSelection selection source p)
  generalize positions.foldl selectFor (withSelection selection source p) = after at *
  refine ⟨frame.selection, frame.queue, frame.arbiter, fun pos closed => ?_, fun pos r opened => ?_,
    fun free => flags fun pos _ => free pos, frame.line, frame.slots, frame.cab, frame.traction, frame.stop, frame.tables, frame.responses⟩
  · obtain ⟨q, -, met, -, stands⟩ := visits pos
    rw [selectFor_none ((openAt_of_seat met).trans closed), met] at stands
    exact seat_eq_iff.mp (stands.trans (seat_of_openAt closed))
  · obtain ⟨q, before, met, later, stands⟩ := visits pos
    have here : openAt q pos = some r := (openAt_of_seat met).trans opened
    have entry : routeEntry q r.junction = routeEntry p r.junction := before.routeEntry r.junction
    have selected : q.junction.selection = selection := before.selection
    refine ⟨fun restarts => ?_, fun kept => ?_, fun other counts => later.flags _ ?_⟩
    · rw [← entry] at restarts ⊢
      rw [← selected] at restarts ⊢
      exact seat_eq_iff.mp (stands.trans (seat_selectFor_restarts here restarts))
    · rw [← entry, ← selected] at kept
      exact seat_eq_iff.mp ((stands.trans (seat_selectFor_stands here kept)).trans
        (met.trans (seat_of_openAt opened)))
    · rw [← entry, ← selected] at other
      rw [selectFor_locked here other counts]
      simp

theorem select_changed {selection : BitVec 4} {source : Option (Fin 82)} {p : Part}
    (changed : selection ≠ p.junction.selection) (live : cabLive p = true) :
    select selection (withSelection p.junction.selection source p) =
      positions.foldl selectFor (withSelection selection source p) := by
  rw [select_stored, if_neg (by simp [changed, live])]

theorem select_selectionFrom (selection : BitVec 4) (p : Part) :
    (select selection p).junction.selectionFrom = p.junction.selectionFrom := by
  unfold select
  dsimp only
  split
  · rfl
  · exact (foldl_listFrame selectFor_actsAt positions _).selectionFrom

theorem selectionIsStale_false_iff (p : Part) : selectionIsStale p = false ↔
    ∃ i, p.junction.selectionFrom = some i ∧ (recordAt p i).age ≤ 10 := by
  unfold selectionIsStale
  split
  · next i h => simp [h]
  · next h => simp [h]

theorem exec_selectionTimeout (s : State) :
    exec .selectionTimeout s = .next { s with part := testSelection s.part } := rfl

theorem testSelection_fresh {p : Part} {i : Fin 82} (given : p.junction.selectionFrom = some i)
    (age : (recordAt p i).age ≤ 10) : testSelection p = p := by
  rw [testSelection, (selectionIsStale_false_iff p).mpr ⟨i, given, age⟩]
  rfl

theorem testSelection_stale {p : Part}
    (h : ∀ i, p.junction.selectionFrom = some i → 10 < (recordAt p i).age) : testSelection p = select 0 p := by
  refine if_pos (Bool.not_eq_false _ ▸ fun fresh => ?_)
  obtain ⟨i, given, age⟩ := (selectionIsStale_false_iff p).mp fresh
  exact absurd (h i given) (Nat.not_lt.mpr age)

/-- Settles O36: a store and the timeout both select, and a selection is taken record by record. -/
theorem selectionChangesRestartRequests : Obligations.SelectionChangesRestartRequests := by
  refine ⟨fun i kind r p code hcode => ?_, fun s => ⟨exec_selectionTimeout s, fun i given age => ?_, fun old => ?_⟩⟩
  · have field : (wordAt r.payload 0).extractLsb' 0 4 = code :=
      BitVec.eq_of_toNat_eq (by rw [hcode]; simp [BitVec.extractLsb'])
    have stored : deliver i .routeSelect kind r p =
        select code (withSelection p.junction.selection (some i) p) := by rw [← field]; rfl
    rw [stored]
    refine ⟨select_selectionFrom _ _, fun same => ?_, fun changed live => ?_⟩
    · rw [select_stored, if_pos same]
      rfl
    · rw [select_changed changed live]
      exact selectionTaken_withSelection _ _ p
  · rw [exec_selectionTimeout, testSelection_fresh given age]
  · rw [exec_selectionTimeout, testSelection_stale old]
    refine ⟨fun same => ?_, fun changed live => ⟨_, rfl, select_selectionFrom _ _, ?_⟩⟩
    · rw [select, if_pos (same.imp_left Eq.symm)]
    · have changes := select_changed (source := s.part.junction.selectionFrom) (Ne.symm changed) live
      exact (congrArg _ changes).mpr (selectionTaken_withSelection _ _ s.part)

end Sys2Proof.Machine
end

section
/-! ## Requests that time out, and point reports (R110, R112, R116 to R119): O37 -/

namespace Sys2Proof.Machine

set_option Elab.async false

/-! ### The count of a request (R110, R119) -/

/-- The record at a position replaced, with the sound unit left alone. -/
def withRecord (pos : Fin 4) (r : JunctionRecord) (p : Part) : Part :=
  { p with junction := { p.junction with list := p.junction.list.set pos (some r) } }

/-- A REQUESTED record counted at a cycle start. -/
def countedRecord (r : JunctionRecord) : JunctionRecord := { r with count := min 65535 (r.count + 1) }

section
variable {p : Part} {pos : Fin 4} {r r' : JunctionRecord}

theorem openAt_withRecord : openAt (withRecord pos r p) pos = some r := by
  simp [openAt, withRecord]

/-- Where no record enters or leaves FAULT, the junction fault condition is as it was (R112). -/
theorem putOpen_eq_withRecord (h : openAt p pos = some r) (fault : inFault r' = inFault r) :
    putOpen pos r' p = withRecord pos r' p := by
  have held : faultCondition p.junction.list (p.junction.list.set pos (some r')) p.sound.junctionFault =
      p.sound.junctionFault := if_pos (anyFault_set (list := p.junction.list) h fault).symm
  rw [putOpen, withList, held]
  rfl

theorem requestIsDue_none (h : openAt p pos = none) : requestIsDue p pos = false := by
  simp [requestIsDue, h]

theorem requestIsDue_iff (h : openAt p pos = some r) : requestIsDue p pos = true ↔
    cabLive p = true ∧ r.state = .requested ∧ (routeEntry p r.junction).timeout ≤ r.count := by
  simp [requestIsDue, h, and_assoc]

theorem requestIsDue_idle (h : cabLive p = false) : requestIsDue p pos = false := by
  cases opened : openAt p pos with
  | none => exact requestIsDue_none opened
  | some r =>
    rw [← Bool.not_eq_true, requestIsDue_iff opened, h]
    exact fun due => Bool.noConfusion due.1

theorem timeOut_open (h : openAt p pos = some r) : timeOut pos p = enterFault pos r .timeout p := by
  simp only [timeOut, h]

theorem countRequest_none (h : openAt p pos = none) : countRequest p pos = p := by
  simp [countRequest, h]

theorem countRequest_other (h : openAt p pos = some r) (state : r.state ≠ .requested) :
    countRequest p pos = p := by
  simp [countRequest, h, state]

theorem countRequest_requested (h : openAt p pos = some r) (state : r.state = .requested) :
    countRequest p pos =
      if requestIsDue (withRecord pos (countedRecord r) p) pos then
        timeOut pos (withRecord pos (countedRecord r) p)
      else withRecord pos (countedRecord r) p := by
  have counted : putOpen pos (countedRecord r) p = withRecord pos (countedRecord r) p :=
    putOpen_eq_withRecord h rfl
  rw [← counted]
  simp only [countRequest, h, if_pos state]
  rfl

end

section
variable {s : State} {pos : Fin 4}

theorem exec_requestTimeout_due (due : requestIsDue s.part pos = true) :
    exec (.requestTimeout pos) s = .next { s with part := timeOut pos s.part } :=
  when_true (c := fun p => requestIsDue p pos) due

theorem exec_requestTimeout_notDue (notDue : requestIsDue s.part pos = false) :
    exec (.requestTimeout pos) s = .next s :=
  when_false (c := fun p => requestIsDue p pos) notDue

end

/-! ### A report and a setting (R116) -/

section
variable {x : SlotRecord} {setting : Setting}

theorem concerns_iff : concerns (pointReportOf x) setting = true ↔
    setting.point = (wordAt x.payload 1).extractLsb' 8 3 := beq_iff_eq

theorem inAgreement_iff : inAgreement (pointReportOf x) setting = true ↔
    (wordAt x.payload 1).toNat / 16 % 4 = (if setting.right then 2 else 1)
      ∧ (wordAt x.payload 1).getLsbD 0 = true := by
  rw [inAgreement, Bool.and_eq_true, beq_iff_eq]
  rfl

end

/-! ### The confirmation set (R117) -/

/-- A setting put into the set, or taken out of it, is one bit. -/
theorem getLsbD_putSetting : ∀ (set : BitVec 3) (i n : Fin 3) (b : Bool),
    (if b then set ||| (1#3 <<< i.val) else set &&& ~~~(1#3 <<< i.val)).getLsbD n =
      if n.val = i.val then b else set.getLsbD n := by
  decide

/-- The set after the settings from `i` on: each of them that the report concerns is in the set exactly where
the report agrees with it, and every other bit stands. -/
theorem confirmSettings_spec (x : PointReport) (ss : List Setting) (i : Nat) (set : BitVec 3)
    (room : i + ss.length ≤ 3) :
    (∀ n, n < i → (confirmSettings x ss i set).getLsbD n = set.getLsbD n)
      ∧ ∀ k s, ss[k]? = some s → (confirmSettings x ss i set).getLsbD (i + k) =
          if concerns x s then inAgreement x s else set.getLsbD (i + k) := by
  induction ss generalizing i set with
  | nil => exact ⟨fun _ _ => rfl, fun k s h => by simp at h⟩
  | cons s ss ih =>
    have short : i + 1 + ss.length ≤ 3 := by simp at room; omega
    have hi : i < 3 := by omega
    rw [confirmSettings]
    generalize hset : (if concerns x s then
        (if inAgreement x s then set ||| (1#3 <<< i) else set &&& ~~~(1#3 <<< i)) else set) = set'
    have bits : ∀ n, n < 3 → set'.getLsbD n =
        if n = i ∧ concerns x s = true then inAgreement x s else set.getLsbD n := fun n hn => by
      rw [← hset]
      cases concerns x s with
      | false => simp
      | true => simpa using getLsbD_putSetting set ⟨i, hi⟩ ⟨n, hn⟩ (inAgreement x s)
    obtain ⟨before, after⟩ := ih (i + 1) set' short
    refine ⟨fun n hn => ?_, fun k s' hs' => ?_⟩
    · rw [before n (by omega), bits n (by omega), if_neg (by omega)]
    · cases k with
      | zero =>
        cases hs'
        rw [before (i + 0) (by omega), bits (i + 0) (by omega)]
        simp
      | succ k =>
        have bound : k < ss.length := Nat.lt_of_succ_lt_succ (List.getElem?_eq_some_iff.mp hs').1
        rw [Nat.add_comm k 1, ← Nat.add_assoc, after k s' hs', bits _ (by omega), if_neg (c := _ ∧ _) (by omega)]

theorem settings_length (route : Route) : route.settings.length ≤ 3 := List.length_take_le' _ _

theorem isComplete_iff (n : Nat) (set : BitVec 3) :
    isComplete n set = true ↔ ∀ m, m < n → set.getLsbD m = true := by
  simp [isComplete]

/-! ### A report at one position (R116 to R118) -/

/-- A report concerns an open record by a route (R116). -/
def ConcernsRecord (x : PointReport) (p : Part) (r : JunctionRecord) (route : Route) : Prop :=
  (routeEntry p r.junction).route? r.route = some route ∧ (routeEntry p r.junction).address = x.address
    ∧ route.settings.any (concerns x) = true

/-- One setting not in agreement is enough (R118). -/
def disagrees (x : PointReport) (route : Route) : Bool :=
  route.settings.any fun s => concerns x s && !inAgreement x s

section
variable {x : PointReport} {p : Part} {pos : Fin 4} {r : JunctionRecord} {route : Route}

theorem reportAt_none (h : openAt p pos = none) : reportAt x p pos = p := by
  simp [reportAt, h]

theorem reportAt_unconcerned (h : openAt p pos = some r) (free : ∀ route, ¬ ConcernsRecord x p r route) :
    reportAt x p pos = p := by
  simp only [reportAt, h]
  split
  · rfl
  · next route found => exact if_neg fun concerned => free route ⟨found, concerned⟩

theorem reportAt_fault (h : openAt p pos = some r) (fault : inFault r = true) : reportAt x p pos = p := by
  obtain ⟨_, _, state, _, _, _, _⟩ := r
  cases state with
  | fault cause =>
    simp only [reportAt, h]
    split
    · rfl
    · exact ite_self p
  | _ => cases fault

theorem reportAt_requested (h : openAt p pos = some r) (concerned : ConcernsRecord x p r route)
    (state : r.state = .requested) : reportAt x p pos = reportRequested x pos r route p := by
  obtain ⟨found, address, point⟩ := concerned
  simp [reportAt, h, found, address, point, state]

theorem reportAt_confirmed (h : openAt p pos = some r) (concerned : ConcernsRecord x p r route)
    (state : r.state = .confirmed) :
    reportAt x p pos = if disagrees x route then enterFault pos r .lockLost p else p := by
  obtain ⟨found, address, point⟩ := concerned
  simp only [reportAt, h, found, address, point, state, and_self, if_true]
  rfl

theorem reportAt_committed (h : openAt p pos = some r) (concerned : ConcernsRecord x p r route)
    (state : r.state = .committed) :
    reportAt x p pos = if disagrees x route then request .alarm (setFlag .lockLostUnder p) else p := by
  obtain ⟨found, address, point⟩ := concerned
  simp only [reportAt, h, found, address, point, state, and_self, if_true]
  rfl

theorem seat_reportRequested : seat (reportRequested x pos r route p) pos =
    if isComplete route.settings.length (confirmSettings x route.settings 0 r.confirmed) then
      (some { r with
          state := .confirmed
          count := 0
          confirmed := confirmSettings x route.settings 0 r.confirmed }, some route.cap)
    else (some { r with confirmed := confirmSettings x route.settings 0 r.confirmed },
      p.caps.junctions[pos]) := by
  unfold reportRequested
  dsimp only
  split
  · exact Prod.ext (openAt_putOpen_self pos _ p) (putRow_junction_self _ pos _)
  · exact seat_putOpen_self

theorem reportAt_actsAt (x : PointReport) (p : Part) (pos : Fin 4) : ActsAt pos p (reportAt x p pos) := by
  cases h : openAt p pos with
  | none => rw [reportAt_none h]; exact .refl p
  | some r =>
    by_cases concerned : ∃ route, ConcernsRecord x p r route
    · obtain ⟨route, concerned⟩ := concerned
      cases state : r.state with
      | requested =>
        rw [reportAt_requested h concerned state]
        exact .ite ((putOpen_actsAt pos p _).trans (setRow_actsAt pos _ _)) (putOpen_actsAt pos p _)
      | confirmed =>
        rw [reportAt_confirmed h concerned state]
        exact .ite (enterFault_actsAt pos p _ _) (.refl p)
      | committed =>
        rw [reportAt_committed h concerned state]
        exact .ite ((setFlag_actsAt pos p _).trans (request_alarm_actsAt pos _)) (.refl p)
      | fault cause =>
        rw [reportAt_fault h (by rw [inFault, state])]
        exact .refl p
    · rw [reportAt_unconcerned h (not_exists.mp concerned)]
      exact .refl p

end

/-! ### A store of a report -/

theorem pointStore_idle {p : Part} (h : cabLive p = false) (x : SlotRecord) : pointStore x p = p :=
  if_neg (by rw [h]; nofun)

theorem pointStore_live {p : Part} (h : cabLive p = true) (x : SlotRecord) :
    pointStore x p = positions.foldl (reportAt (pointReportOf x)) p := if_pos h

/-- The record at a position is met by the report as it was, and keeps what the report makes of it. -/
theorem pointStore_visits {p : Part} (h : cabLive p = true) (x : SlotRecord) (pos : Fin 4) :
    ∃ q, ListFrame p q ∧ seat q pos = seat p pos
      ∧ ListFrame (reportAt (pointReportOf x) q pos) (pointStore x p)
      ∧ seat (pointStore x p) pos = seat (reportAt (pointReportOf x) q pos) pos := by
  rw [pointStore_live h]
  exact positions_visits (reportAt_actsAt _) pos p

theorem pointStore_listFrame (x : SlotRecord) (p : Part) : ListFrame p (pointStore x p) := by
  cases h : cabLive p with
  | false => rw [pointStore_idle h]; exact .refl p
  | true => rw [pointStore_live h]; exact foldl_listFrame (reportAt_actsAt _) positions p

theorem ListFrame.concernsRecord {p q : Part} (h : ListFrame p q) {x : PointReport} {r : JunctionRecord}
    {route : Route} : ConcernsRecord x q r route ↔ ConcernsRecord x p r route := by
  simp only [ConcernsRecord, h.routeEntry]

section
variable {x : SlotRecord} {p : Part} {pos : Fin 4} {r : JunctionRecord} {route : Route}

/-- A position at which no report acts on anything stands. -/
theorem seat_pointStore_stands (live : cabLive p = true)
    (stands : ∀ q, ListFrame p q → openAt q pos = openAt p pos → reportAt (pointReportOf x) q pos = q) :
    seat (pointStore x p) pos = seat p pos := by
  obtain ⟨q, before, met, -, kept⟩ := pointStore_visits live x pos
  rw [stands q before (openAt_of_seat met)] at kept
  exact kept.trans met

theorem seat_pointStore_requested (live : cabLive p = true) (opened : openAt p pos = some r)
    (concerned : ConcernsRecord (pointReportOf x) p r route) (state : r.state = .requested) :
    seat (pointStore x p) pos = seat (reportRequested (pointReportOf x) pos r route p) pos := by
  obtain ⟨q, before, met, -, kept⟩ := pointStore_visits live x pos
  have here : openAt q pos = some r := (openAt_of_seat met).trans opened
  have row : q.caps.junctions[pos] = p.caps.junctions[pos] := congrArg Prod.snd met
  rw [kept, reportAt_requested here (before.concernsRecord.mpr concerned) state, seat_reportRequested,
    seat_reportRequested, row]

/-- LOCK_LOST (R118). -/
theorem pointStore_lockLost (live : cabLive p = true) (opened : openAt p pos = some r)
    (concerned : ConcernsRecord (pointReportOf x) p r route) (state : r.state = .confirmed)
    (lost : disagrees (pointReportOf x) route = true) :
    seat (pointStore x p) pos =
        (some { r with state := .fault .lockLost, count := 0, confirmed := 0 }, some 0)
      ∧ ((patternOf p.tables.cadence.words .alarm).steps ≠ 0 → (pointStore x p).sound.alarm.state ≠ .idle) := by
  obtain ⟨q, before, met, after, kept⟩ := pointStore_visits live x pos
  have here : openAt q pos = some r := (openAt_of_seat met).trans opened
  have acts : cabActs q = true := cabActs_of_cabLive (before.cabLive.trans live)
  rw [reportAt_confirmed here (before.concernsRecord.mpr concerned) state, if_pos lost] at kept after
  rw [← before.tables]
  exact ⟨kept.trans (seat_enterFault pos r _ q), fun steps => after.alarm (enterFault_alarm pos r _ q acts steps)⟩

/-- LOCK_LOST_UNDER (R118). -/
theorem pointStore_lockLostUnder (live : cabLive p = true) (opened : openAt p pos = some r)
    (concerned : ConcernsRecord (pointReportOf x) p r route) (state : r.state = .committed)
    (lost : disagrees (pointReportOf x) route = true) :
    hasFlag (pointStore x p).mgmt.flags .lockLostUnder = true
      ∧ ((patternOf p.tables.cadence.words .alarm).steps ≠ 0 → (pointStore x p).sound.alarm.state ≠ .idle) := by
  obtain ⟨q, before, met, after, -⟩ := pointStore_visits live x pos
  have here : openAt q pos = some r := (openAt_of_seat met).trans opened
  have acts : cabActs q = true := cabActs_of_cabLive (before.cabLive.trans live)
  rw [reportAt_committed here (before.concernsRecord.mpr concerned) state, if_pos lost] at after
  rw [← before.tables]
  refine ⟨after.flags _ ?_, fun steps => after.alarm (request_notIdle (x := .alarm) (by exact acts) steps)⟩
  show hasFlag (withFlag q.mgmt.flags .lockLostUnder) .lockLostUnder = true
  simp

/-- A committed record keeps its lock, and so does a confirmed one that the report agrees with. -/
theorem seat_pointStore_locked (live : cabLive p = true) (opened : openAt p pos = some r)
    (concerned : ConcernsRecord (pointReportOf x) p r route)
    (locked : r.state = .committed ∨ (r.state = .confirmed ∧ disagrees (pointReportOf x) route = false)) :
    seat (pointStore x p) pos = seat p pos := by
  obtain ⟨q, before, met, -, kept⟩ := pointStore_visits live x pos
  have here : openAt q pos = some r := (openAt_of_seat met).trans opened
  have concerned := before.concernsRecord.mpr concerned
  rw [kept, ← met]
  rcases locked with state | ⟨state, agreed⟩
  · rw [reportAt_committed here concerned state]
    split
    · rw [request_chime_eq (x := .alarm) rfl]
      rfl
    · rfl
  · rw [reportAt_confirmed here concerned state, agreed]
    rfl

end

/-! ### O37 -/

/-- REQUEST_TIMEOUT of a request that is due (R119). -/
theorem requestTimeout_fails {s : State} {pos : Fin 4} {r : JunctionRecord} (live : cabLive s.part = true)
    (opened : openAt s.part pos = some r) (state : r.state = .requested)
    (due : (routeEntry s.part r.junction).timeout ≤ r.count) :
    exec (.requestTimeout pos) s = .next { s with part := enterFault pos r .timeout s.part } := by
  rw [exec_requestTimeout_due ((requestIsDue_iff opened).mpr ⟨live, state, due⟩), timeOut_open opened]

theorem requestTimeout_stands {s : State} {pos : Fin 4} {r : JunctionRecord} (opened : openAt s.part pos = some r)
    (h : r.state ≠ .requested ∨ r.count < (routeEntry s.part r.junction).timeout) :
    exec (.requestTimeout pos) s = .next s := by
  refine exec_requestTimeout_notDue (Bool.eq_false_iff.mpr fun due => ?_)
  obtain ⟨-, state, reached⟩ := (requestIsDue_iff opened).mp due
  rcases h with other | short
  · exact other state
  · exact absurd reached (Nat.not_le.mpr short)

section
variable {p : Part} {pos : Fin 4} {r : JunctionRecord}

/-- A count that reaches the timeout ends as REQUEST_TIMEOUT does (R110, R119). -/
theorem countRequest_due (opened : openAt p pos = some r) (state : r.state = .requested)
    (live : cabLive p = true) (reached : (routeEntry p r.junction).timeout ≤ min 65535 (r.count + 1)) :
    requestIsDue (withRecord pos (countedRecord r) p) pos = true
      ∧ countRequest p pos = timeOut pos (withRecord pos (countedRecord r) p) := by
  have due : requestIsDue (withRecord pos (countedRecord r) p) pos = true :=
    (requestIsDue_iff openAt_withRecord).mpr ⟨live, state, reached⟩
  exact ⟨due, by rw [countRequest_requested opened state, if_pos due]⟩

theorem countRequest_goesOn (opened : openAt p pos = some r) (state : r.state = .requested)
    (h : cabLive p = false ∨ min 65535 (r.count + 1) < (routeEntry p r.junction).timeout) :
    countRequest p pos = withRecord pos (countedRecord r) p := by
  rw [countRequest_requested opened state, if_neg fun due => ?_]
  obtain ⟨live, -, reached⟩ := (requestIsDue_iff openAt_withRecord).mp due
  rcases h with idle | short
  · exact Bool.noConfusion (idle.symm.trans live)
  · exact absurd reached (Nat.not_le.mpr short)

end

section
variable {x : SlotRecord} {p : Part} {r : JunctionRecord} {route : Route}

theorem concernsRecord_iff : ConcernsRecord (pointReportOf x) p r route ↔
    (routeEntry p r.junction).route? r.route = some route
      ∧ (routeEntry p r.junction).address = (wordAt x.payload 0).toNat % 256
      ∧ ∃ setting ∈ route.settings, setting.point = (wordAt x.payload 1).extractLsb' 8 3 := by
  have address : (pointReportOf x).address = (wordAt x.payload 0).toNat % 256 := by
    simp [pointReportOf, bitsOf]
  simp only [ConcernsRecord, List.any_eq_true, concerns_iff, address]

theorem disagrees_iff : disagrees (pointReportOf x) route = true ↔
    ∃ setting ∈ route.settings, setting.point = (wordAt x.payload 1).extractLsb' 8 3
      ∧ ¬ ((wordAt x.payload 1).toNat / 16 % 4 = (if setting.right then 2 else 1)
        ∧ (wordAt x.payload 1).getLsbD 0 = true) := by
  simp only [disagrees, List.any_eq_true, Bool.and_eq_true, concerns_iff, Bool.not_eq_true', ← inAgreement_iff,
    Bool.not_eq_true]

/-- The confirmation set after a report, setting by setting (R117). -/
theorem confirmSettings_setting (set : BitVec 3) {n : Nat} {setting : Setting}
    (h : route.settings[n]? = some setting) :
    (confirmSettings (pointReportOf x) route.settings 0 set).getLsbD n = true ↔
      if setting.point = (wordAt x.payload 1).extractLsb' 8 3 then
        (wordAt x.payload 1).toNat / 16 % 4 = (if setting.right then 2 else 1)
          ∧ (wordAt x.payload 1).getLsbD 0 = true
      else set.getLsbD n = true := by
  have room : 0 + route.settings.length ≤ 3 := by
    rw [Nat.zero_add]
    exact settings_length route
  have bit := (confirmSettings_spec (pointReportOf x) route.settings 0 set room).2 n setting h
  rw [Nat.zero_add] at bit
  rw [bit]
  by_cases point : setting.point = (wordAt x.payload 1).extractLsb' 8 3
  · rw [if_pos point, if_pos (concerns_iff.mpr point), inAgreement_iff]
  · rw [if_neg point, if_neg (mt concerns_iff.mp point)]

end

/-- A record in FAULT, of another address, or of a route without the reported point (R116, R118). -/
theorem seat_pointStore_free {x : SlotRecord} {p : Part} {pos : Fin 4} {r : JunctionRecord}
    (live : cabLive p = true) (opened : openAt p pos = some r)
    (free : inFault r = true ∨ (routeEntry p r.junction).address ≠ (wordAt x.payload 0).toNat % 256
      ∨ ∀ route, (routeEntry p r.junction).route? r.route = some route →
          ∀ setting ∈ route.settings, setting.point ≠ (wordAt x.payload 1).extractLsb' 8 3) :
    seat (pointStore x p) pos = seat p pos := by
  refine seat_pointStore_stands live fun q before same => ?_
  have here : openAt q pos = some r := same.trans opened
  rcases free with fault | apart
  · exact reportAt_fault here fault
  · refine reportAt_unconcerned here fun route concerned => ?_
    obtain ⟨found, address, setting, member, point⟩ := concernsRecord_iff.mp (before.concernsRecord.mp concerned)
    rcases apart with other | without
    · exact other address
    · exact without route found setting member point

/-- Settles O37: the count and the timeout by the record's state, a report by the record that it meets. -/
theorem requestTimesOutToFault : Obligations.RequestTimesOutToFault := by
  refine ⟨fun _ => rfl,
    fun s pos => ⟨fun closed => ?_, fun idle => exec_requestTimeout_notDue (requestIsDue_idle idle),
      fun r opened => ⟨countRequest_other opened,
        fun state => ⟨fun live reached => ?_, countRequest_goesOn opened state⟩⟩⟩,
    fun s pos r live opened => ⟨fun state due => ?_, requestTimeout_stands opened⟩,
    fun i kind x p => ⟨fun idle => pointStore_idle idle x, fun live => ?_⟩⟩
  · exact ⟨countRequest_none closed, exec_requestTimeout_notDue (requestIsDue_none closed)⟩
  · obtain ⟨due, counted⟩ := countRequest_due opened state live reached
    rw [counted]
    exact exec_requestTimeout_due (s := { s with part := withRecord pos (countedRecord r) s.part }) due
  · have fault := enterFault_eq pos r .timeout s.part
    have acts := enterFault_actsAt pos s.part r .timeout
    obtain ⟨record, -⟩ := seat_eq_iff.mp (seat_enterFault pos r .timeout s.part)
    refine ⟨_, requestTimeout_fails live opened state due, record, ?_,
      fun pos' h => openAt_of_seat (acts.others pos' (Ne.symm h)), enterFault_lamp pos r .timeout s.part,
      enterFault_alarm pos r .timeout s.part (cabActs_of_cabLive live), acts.frame.queue, acts.frame.arbiter,
      acts.frame.line, acts.frame.slots, acts.frame.cab, acts.frame.traction, acts.frame.stop, acts.frame.tables, ?_⟩
    · rw [fault]
    · rw [fault]
  · have frame : ListFrame p (pointStore x p) := pointStore_listFrame x p
    refine ⟨fun pos closed => ?_, fun pos r opened => ⟨fun free => ?_, fun route address found point => ?_⟩,
      frame.queue, frame.arbiter, frame.responses, frame.cab, frame.traction, frame.stop, frame.slots, frame.tables,
      frame.line⟩
    · exact seat_eq_iff.mp ((seat_pointStore_stands live fun q _ same => reportAt_none (same.trans closed)).trans
        (seat_of_openAt closed))
    · exact seat_eq_iff.mp ((seat_pointStore_free live opened free).trans (seat_of_openAt opened))
    · have concerned : ConcernsRecord (pointReportOf x) p r route := concernsRecord_iff.mpr ⟨found, address, point⟩
      have locked := fun h => seat_eq_iff.mp
        ((seat_pointStore_locked live opened concerned h).trans (seat_of_openAt opened))
      refine ⟨fun state => ?_, fun state => ⟨fun lost => ?_, fun agreed => locked (.inr ⟨state, ?_⟩)⟩,
        fun state => ?_⟩
      · refine ⟨confirmSettings (pointReportOf x) route.settings 0 r.confirmed,
          fun n setting => confirmSettings_setting r.confirmed, ?_⟩
        have met := (seat_pointStore_requested live opened concerned state).trans seat_reportRequested
        split
        · next complete => exact seat_eq_iff.mp (met.trans (if_pos ((isComplete_iff _ _).mpr complete)))
        · next short => exact seat_eq_iff.mp (met.trans (if_neg (mt (isComplete_iff _ _).mp short)))
      · obtain ⟨met, alarm⟩ := pointStore_lockLost live opened concerned state (disagrees_iff.mpr lost)
        obtain ⟨record, row⟩ := seat_eq_iff.mp met
        exact ⟨record, row, alarm⟩
      · refine Bool.eq_false_iff.mpr fun lost => ?_
        obtain ⟨setting, member, same, other⟩ := disagrees_iff.mp lost
        exact other (agreed setting member same)
      · obtain ⟨record, row⟩ := locked (.inl state)
        exact ⟨record, row,
          fun lost => pointStore_lockLostUnder live opened concerned state (disagrees_iff.mpr lost)⟩

end Sys2Proof.Machine
end

section
/-! ## Markers and the records of their junctions (R105 to R107, R113, R120, R122 to R124): O39 -/

namespace Sys2Proof.Machine

set_option Elab.async false

/-! ### The MARKER store and its lookup (R105 to R107) -/

/-- The counter of a marker stored as the last. -/
def withLastMarker (counter : Byte) (p : Part) : Part :=
  { p with junction := { p.junction with lastMarker := some counter } }

section
variable {x : SlotRecord} {p : Part}

theorem markerStore_known (h : p.junction.lastMarker = none
      ∨ p.junction.lastMarker = some (lowByte (wordAt x.payload 1)) ∨ cabLive p = false) :
    markerStore x p = withLastMarker (lowByte (wordAt x.payload 1)) p := by
  unfold markerStore
  dsimp only
  split
  · rfl
  · next last hl =>
    refine if_pos (Or.imp_left (fun same => ?_) (h.resolve_left (by rw [hl]; nofun)))
    exact (Option.some.inj (hl.symm.trans same)).symm

/-- The id is the lower twelve bits of its word, and a step of one is told mod 256 (R106). -/
theorem markerStore_new {last : Byte} (hl : p.junction.lastMarker = some last)
    (changed : lowByte (wordAt x.payload 1) ≠ last) (live : cabLive p = true) :
    markerStore x p = newMarker ((wordAt x.payload 0).toNat % 4096)
      (if lowByte (wordAt x.payload 1) = last + 1 then withLastMarker (lowByte (wordAt x.payload 1)) p
        else markersMissed (withLastMarker (lowByte (wordAt x.payload 1)) p)) := by
  have field : bitsOf (wordAt x.payload 0) 0 12 = (wordAt x.payload 0).toNat % 4096 := by simp [bitsOf]
  have step : lowByte (wordAt x.payload 1) - last = 1 ↔ lowByte (wordAt x.payload 1) = last + 1 := by
    rw [sub_eq_iff_eq_add, add_comm]
  have acts : ¬ (lowByte (wordAt x.payload 1) = last ∨ cabLive p = false) := by simp [changed, live]
  simp only [markerStore, hl, if_neg acts, step, field]
  split
  · rfl
  · rfl

theorem lookupMarker_absent {words : List Word} {id : Nat}
    (h : id = 0 ∨ ∀ m ∈ markerEntries words, m.id ≠ id) : lookupMarker words id = none := by
  rcases h with zero | absent
  · exact if_pos zero
  · have missing : (markerEntries words).find? (fun e => e.id == id) = none :=
      List.find?_eq_none.mpr fun m member => by simpa using absent m member
    rw [lookupMarker, missing, ite_self]

/-- The entry of lowest index decides (R105). -/
theorem lookupMarker_first {words : List Word} {id k : Nat} {m : MarkerEntry} (nonzero : id ≠ 0)
    (here : (markerEntries words)[k]? = some m) (same : m.id = id)
    (before : ∀ k' m', k' < k → (markerEntries words)[k']? = some m' → m'.id ≠ id) :
    lookupMarker words id = some m := by
  obtain ⟨bound, entry⟩ := List.getElem?_eq_some_iff.mp here
  refine (if_neg nonzero).trans (List.find?_eq_some_iff_getElem.mpr ⟨by simpa using same, k, bound, entry,
    fun k' hk => ?_⟩)
  simpa using before k' _ hk (List.getElem?_eq_getElem (hk.trans bound))

theorem newMarker_absent {id : Nat} (h : id = 0 ∨ ∀ m ∈ markerEntries p.tables.marker.words, m.id ≠ id) :
    newMarker id p = setFlag .unknownMarker p := by
  simp only [newMarker, lookupMarker_absent h]

/-- What a known marker of a role does at its junction (R107). -/
def markerActs (m : MarkerEntry) (p : Part) : Part :=
  match m.role with
  | .request => requestMarker m.junction (routeEntry p m.junction) p
  | .commit => commitMarker m.junction p
  | .clear => clearMarker m.junction p

theorem newMarker_found {id : Nat} {m : MarkerEntry} (h : lookupMarker p.tables.marker.words id = some m) :
    newMarker id p =
      if (routeEntry p m.junction).defined then markerActs m p else setFlag .unknownMarker p := by
  simp only [newMarker, h]
  rfl

end

/-! ### The position of a junction, and the free position (R111, R113) -/

theorem find?_positions {f : Fin 4 → Bool} {pos : Fin 4} (here : f pos = true)
    (before : ∀ pos', pos' < pos → f pos' = false) : positions.find? f = some pos := by
  have all : positions.find? f = Fin.find? f := Fin.find?_eq_find?_finRange.symm
  rw [all]
  exact Fin.find?_eq_some_iff.mpr ⟨here, fun pos' h => by simpa using before pos' h⟩

theorem find?_positions_none {f : Fin 4 → Bool} (h : ∀ pos, f pos = false) : positions.find? f = none := by
  simp [List.find?_eq_none, h]

section
variable {p : Part} {j : Six} {pos : Fin 4}

theorem openFor_first {r : JunctionRecord} (opened : openAt p pos = some r) (junction : r.junction = j)
    (before : ∀ pos' r', pos' < pos → openAt p pos' = some r' → r'.junction ≠ j) :
    openFor p j = some pos := by
  refine find?_positions (by simp [opened, junction]) fun pos' h => ?_
  cases other : openAt p pos' with
  | none => rfl
  | some r' => simpa using before pos' r' h other

theorem openFor_absent (h : ∀ pos r, openAt p pos = some r → r.junction ≠ j) : openFor p j = none := by
  refine find?_positions_none fun pos => ?_
  cases opened : openAt p pos with
  | none => rfl
  | some r => simpa using h pos r opened

theorem openFor_ne_none {r : JunctionRecord} (opened : openAt p pos = some r) (junction : r.junction = j) :
    openFor p j ≠ none := fun missing => openFor_none missing pos opened junction

theorem freePosition_first (free : openAt p pos = none) (before : ∀ pos', pos' < pos → openAt p pos' ≠ none) :
    freePosition p = some pos :=
  find?_positions (by simp [free]) fun pos' h => by simpa [Option.isSome_iff_ne_none] using before pos' h

theorem freePosition_full (h : ∀ pos, openAt p pos ≠ none) : freePosition p = none :=
  find?_positions_none fun pos => by simpa [Option.isSome_iff_ne_none] using h pos

end

/-! ### REQUEST (R113) -/

/-- The record that a REQUEST marker opens. -/
def requestedRecord (j : Six) (route : BitVec 4) : JunctionRecord where
  junction := j
  route := route
  state := .requested
  count := 0
  confirmed := 0
  distance := 0
  setSent := false

section
variable {p : Part} {j : Six} {e : RouteEntry} {pos : Fin 4}

theorem requestMarker_present {r : JunctionRecord} (opened : openAt p pos = some r) (junction : r.junction = j) :
    requestMarker j e p = p := by
  unfold requestMarker
  split
  · rfl
  · next missing => exact absurd missing (openFor_ne_none opened junction)

theorem requestMarker_full (absent : openFor p j = none) (full : freePosition p = none) :
    requestMarker j e p = overflowList p := by
  simp only [requestMarker, absent, full]

theorem requestMarker_opens (absent : openFor p j = none) (free : freePosition p = some pos) :
    requestMarker j e p = openRecord pos j e p := by
  simp only [requestMarker, absent, free]

theorem openRecord_defined (h : (e.route? (e.effective p.junction.selection)).isSome = true) :
    openRecord pos j e p = setRow (.junction pos) e.unconfirmed
      (putOpen pos (requestedRecord j (e.effective p.junction.selection)) p) := if_pos h

theorem openRecord_undefined (h : (e.route? (e.effective p.junction.selection)).isSome = false) :
    openRecord pos j e p =
      enterFault pos (requestedRecord j (e.effective p.junction.selection)) .noRoute p :=
  if_neg (by rw [h]; nofun)

/-- A record opens REQUESTED at the unconfirmed cap, or in FAULT(NO_ROUTE) at 0 with ALARM requested (R113). -/
theorem openRecord_fields (pos : Fin 4) (j : Six) (e : RouteEntry) (p : Part) :
    (openRecord pos j e p).junction = { p.junction with
        list := p.junction.list.set pos (some { requestedRecord j (e.effective p.junction.selection) with
          state := if (e.route? (e.effective p.junction.selection)).isSome = true then .requested
            else .fault .noRoute }) }
      ∧ (openRecord pos j e p).caps = { p.caps with
          junctions := p.caps.junctions.set pos (some
            (if (e.route? (e.effective p.junction.selection)).isSome = true then e.unconfirmed else 0)) }
      ∧ (openRecord pos j e p).mgmt = p.mgmt
      ∧ ((e.route? (e.effective p.junction.selection)).isSome = false → cabActs p = true →
          (patternOf p.tables.cadence.words .alarm).steps ≠ 0 →
          (openRecord pos j e p).sound.alarm.state ≠ .idle) := by
  cases defined : (e.route? (e.effective p.junction.selection)).isSome with
  | true =>
    rw [openRecord_defined defined]
    exact ⟨rfl, rfl, rfl, nofun⟩
  | false =>
    rw [openRecord_undefined defined]
    refine ⟨?_, ?_, ?_, fun _ => enterFault_alarm pos _ .noRoute p⟩
    · rw [enterFault_eq]
      rfl
    · rw [enterFault_eq]
      rfl
    · rw [enterFault_eq]

/-- The list overflows: the row, its alarm condition and ALARM (R113, R164). -/
theorem overflowList_eq (p : Part) : overflowList p = { p with
    caps := { p.caps with overflow := some 0 }
    sound := (overflowList p).sound } := by
  unfold overflowList
  rw [request_chime_eq (x := .alarm) rfl]
  rfl

theorem overflowList_lamp (p : Part) : alarmLamp (overflowList p) = true := by
  have lit : (overflowList p).sound.overflow = true := (requestSource_desk _ _ .alarm _).overflow
  simp [alarmLamp, lit]

theorem overflowList_alarm (acts : cabActs p = true)
    (steps : (patternOf p.tables.cadence.words .alarm).steps ≠ 0) :
    (overflowList p).sound.alarm.state ≠ .idle :=
  request_notIdle (x := .alarm) (by exact acts) steps

end

/-! ### COMMIT (R120) -/

section
variable {p : Part} {j : Six} {pos : Fin 4} {r : JunctionRecord}

theorem commitMarker_absent (absent : openFor p j = none) : commitMarker j p = setFlag .strayMarker p := by
  simp only [commitMarker, absent]

theorem commitMarker_confirmed (found : openFor p j = some pos) (opened : openAt p pos = some r)
    (state : r.state = .confirmed) :
    commitMarker j p = putOpen pos { r with state := .committed, count := 0, distance := 0 } p := by
  simp only [commitMarker, found, opened, state]

theorem commitMarker_committed (found : openFor p j = some pos) (opened : openAt p pos = some r)
    (state : r.state = .committed ∨ r.state = .fault .commitUnconfirmed) : commitMarker j p = p := by
  rcases state with state | state
  · simp only [commitMarker, found, opened, state]
  · simp only [commitMarker, found, opened, state]

theorem commitMarker_fails (found : openFor p j = some pos) (opened : openAt p pos = some r)
    (notConfirmed : r.state ≠ .confirmed) (notCommitted : r.state ≠ .committed)
    (notFailed : r.state ≠ .fault .commitUnconfirmed) :
    commitMarker j p = enterFault pos { r with distance := 0 } .commitUnconfirmed p := by
  simp only [commitMarker, found, opened]
  split
  · next state => exact absurd state notConfirmed
  · next state => exact absurd state notCommitted
  · next state => exact absurd state notFailed
  · rfl
  · rfl

end

/-! ### CLEAR (R122 to R124) -/

section
variable {p : Part} {j : Six} {pos : Fin 4} {r : JunctionRecord} {x : Release}

theorem clearMarker_absent (absent : openFor p j = none) : clearMarker j p = p := by
  simp only [clearMarker, absent]

theorem clearMarker_closes (found : openFor p j = some pos) (opened : openAt p pos = some r) :
    clearMarker j p = closeRecord pos r p := by
  simp only [clearMarker, found, opened]

theorem appendRelease_room (h : p.junction.queue.length < 4) :
    appendRelease x p = { p with junction := { p.junction with queue := p.junction.queue ++ [x] } } := if_pos h

theorem appendRelease_full (h : 4 ≤ p.junction.queue.length) : appendRelease x p = setFlag .releaseLost
    { p with junction := { p.junction with queue := p.junction.queue.drop 1 ++ [x] } } :=
  if_neg (Nat.not_lt.mpr h)

theorem released_unsent (h : r.setSent = false) : released r p = p := if_neg (by rw [h]; nofun)

theorem released_sent (h : r.setSent = true) : released r p = appendRelease (releaseOf p r) p := if_pos h

/-- A record that closes withdraws its row; the queue and the flags are as its RELEASE leaves them (R123). -/
theorem closeRecord_fields :
    (closeRecord pos r p).caps = { p.caps with junctions := p.caps.junctions.set pos none }
      ∧ (closeRecord pos r p).junction.queue = (released r p).junction.queue
      ∧ (closeRecord pos r p).mgmt = (released r p).mgmt := by
  rw [closeRecord_eq, ← released_caps r p]
  exact ⟨rfl, rfl, rfl⟩

end

/-- Settles O39: the store, the lookup, and each of the three roles by the record of its junction. -/
theorem markersActOnTheirJunction : Obligations.MarkersActOnTheirJunction := by
  intro p j
  refine ⟨fun i kind x => ⟨markerStore_known, fun last => markerStore_new⟩, fun id => ⟨newMarker_absent,
    fun k m nonzero here same before => ?_⟩, ⟨?_, fun full => ?_, fun pos free before absent => ?_⟩,
    ⟨fun absent => commitMarker_absent (openFor_absent absent), fun pos r opened junction before => ?_⟩,
    fun absent => clearMarker_absent (openFor_absent absent), fun pos r opened junction before => ?_⟩
  · rw [newMarker_found (lookupMarker_first nonzero here same before)]
    cases (routeEntry p m.junction).defined with
    | false => rfl
    | true => rfl
  · rintro ⟨pos, r, opened, junction⟩
    exact requestMarker_present opened junction
  · have occupied : freePosition p = none := freePosition_full fun pos => by
      obtain ⟨r, opened, -⟩ := full pos
      rw [opened]
      nofun
    have absent : openFor p j = none := openFor_absent fun pos r opened => by
      obtain ⟨r', opened', other⟩ := full pos
      rwa [Option.some.inj (opened.symm.trans opened')]
    rw [requestMarker_full absent occupied]
    refine ⟨?_, ?_, ?_, overflowList_lamp p, overflowList_alarm⟩
    all_goals rw [overflowList_eq]
  · rw [requestMarker_opens (openFor_absent absent) (freePosition_first free before)]
    exact openRecord_fields pos j (routeEntry p j) p
  · have found := openFor_first opened junction before
    refine ⟨fun state => ?_, commitMarker_committed found opened, fun notConfirmed notCommitted notFailed => ?_⟩
    · rw [commitMarker_confirmed found opened state]
      exact ⟨rfl, rfl, rfl⟩
    · rw [commitMarker_fails found opened notConfirmed notCommitted notFailed]
      have fault := enterFault_eq pos { r with distance := 0 } .commitUnconfirmed p
      refine ⟨?_, ?_, ?_, enterFault_alarm _ _ _ p⟩
      all_goals rw [fault]
  · rw [clearMarker_closes (openFor_first opened junction before) opened]
    obtain ⟨caps, queue, mgmt⟩ := closeRecord_fields (p := p) (pos := pos) (r := r)
    refine ⟨caps, (seat_eq_iff.mp seat_closeRecord_self).1,
      fun pos' h => openAt_of_seat (seat_closeRecord_ne (Ne.symm h)), fun unsent => ?_,
      fun sent => ⟨fun room => ?_, fun full => ?_⟩⟩
    · rw [queue, mgmt, released_unsent unsent]
      exact ⟨rfl, rfl⟩
    · rw [queue, mgmt, released_sent sent, appendRelease_room room]
      exact ⟨rfl, rfl⟩
    · rw [queue, mgmt, released_sent sent, appendRelease_full full]
      exact ⟨rfl, by simp⟩

end Sys2Proof.Machine
end

section
/-! ## Power-on reset of the units and the tables (R130, R147, R166, R181, R190): O4 -/

namespace Sys2Proof.Machine

set_option Elab.async false

theorem tableSum_zero (n : Nat) : tableSum (List.replicate n 0) = 0 := by
  induction n with
  | zero => rfl
  | succ n ih => exact ih

/-- Every table but PARAM holds zeros (R181). -/
theorem tableAt_reset {t : TableId} (h : t ≠ .param) :
    tableAt TableStore.reset t = Table.reset (List.replicate (tableSize t) 0) := by
  cases t with
  | param => exact absurd rfl h
  | _ => rfl

theorem tableAt_reset_locked (t : TableId) :
    (tableAt TableStore.reset t).lock = .locked ∧ (tableAt TableStore.reset t).faulty = false := by
  cases t <;> exact ⟨rfl, rfl⟩

theorem getSource_reset (x : Source) : getSource Sound.reset x = SoundSource.idle := by
  cases x <;> rfl

/-- TABLES_LOST alone is set (R181, R190). -/
theorem hasFlag_reset (f : Flag) : hasFlag Management.reset.flags f = decide (f = .tablesLost) := by
  cases f <;> rfl

theorem anyFault_reset : anyFault JunctionUnit.reset.list = false := by decide +kernel

/-- No zone has pending assistance and no stop is requested (R147). -/
theorem signWords_reset : signWords State.reset.part = [0] := by decide +kernel

theorem zones_reset (z : Fin 8) : StopUnit.reset.assistance[z] = .clear ∧ StopUnit.reset.lastStop[z] = none
    ∧ StopUnit.reset.lastAssist[z] = none := by
  simp [StopUnit.reset]

/-- Settles O4: the units and the tables field by field. -/
theorem powerOnResetUnitsAndTables : Obligations.PowerOnResetUnitsAndTables := by
  intro lines s
  refine ⟨{ resetPart lines.toLines with
    resetN := lines.resetN
    node := if lines.resetN then nodeNumber lines.node else s.part.node }, ?_, openAt_reset, rfl, rfl, rfl, rfl,
    rfl, rfl, anyFault_reset, rfl, rfl, fun pos => getRow_reset (.junction pos), rfl, rfl, rfl, rfl,
    zones_reset, rfl, rfl, rfl, rfl, signWords_reset, fun x => ?_, fun ch => ?_, rfl, rfl, rfl, rfl,
    rfl, rfl, rfl, rfl, rfl, rfl, rfl, rfl, fun t ht => ?_, rfl, rfl, tableAt_reset_locked, rfl, rfl, rfl, rfl, rfl,
    rfl, rfl, rfl, rfl, hasFlag_reset, rfl⟩
  · rw [← powerOnReset_eq]
    rfl
  · exact (congrArg (fun src => src.state = .idle ∧ src.releaseMark = false) (getSource_reset x)).mpr ⟨rfl, rfl⟩
  · cases ch <;> rfl
  · exact (congrArg (fun tab => tab.words = List.replicate (tableSize t) 0 ∧ tab.ref = 0)
      (tableAt_reset ht)).mpr ⟨rfl, tableSum_zero _⟩

end Sys2Proof.Machine
end

section
/-! ## The door status, the trip phase and the DOORS row (R132 to R138): O40 -/

namespace Sys2Proof.Machine

set_option Elab.async false

/-! ### The zones of a door status (R132, R133) -/

/-- Every zone of zone_mask is in a closed bitmap. -/
def ShutIn (closed : Byte) (p : Part) : Prop :=
  ∀ z : Fin 8, (zoneMask p).getLsbD z.val = true → closed.getLsbD z.val = true

section
variable {p : Part} {d : DoorStatus}

theorem closedZones_some (h : p.stop.door = some d) : closedZones p = d.closed := by
  simp [closedZones, h]

theorem releasedZones_some (h : p.stop.door = some d) : releasedZones p = d.released := by
  simp [releasedZones, h]

theorem allClosed_iff (h : p.stop.door = some d) : allClosed p = true ↔ ShutIn d.closed p := by
  rw [← closedZones_some h]
  exact zones_subset _ _

/-- With no door status there is no record to be fresh. -/
theorem doorIsStale_iff : doorIsStale p = true ↔ ∀ d, p.stop.door = some d →
    hasFn p .doorStatus = false ∨ doorStale p < (recordAt p d.source).age := by
  cases h : p.stop.door with
  | none => simp [doorIsStale, h]
  | some d => simp [doorIsStale, h]

theorem doorIsStale_fresh (h : p.stop.door = some d) (entry : hasFn p .doorStatus = true)
    (age : (recordAt p d.source).age ≤ doorStale p) : doorIsStale p = false := by
  simp [doorIsStale, h, entry, age]

/-- Under a fresh door status the zones alone decide the row. -/
theorem doorsHold_fresh (h : p.stop.door = some d) (entry : hasFn p .doorStatus = true)
    (age : (recordAt p d.source).age ≤ doorStale p) :
    doorsHold p = false ↔ ShutIn d.closed p ∧ d.released = 0 := by
  rw [doorsHold_false_iff]
  constructor
  · rintro ⟨d', held, -, -, shut, noZone⟩
    obtain rfl : d = d' := Option.some.inj (h.symm.trans held)
    exact ⟨shut, noZone⟩
  · rintro ⟨shut, noZone⟩
    exact ⟨d, h, entry, age, shut, noZone⟩

theorem testDoors_frame (p : Part) : testDoors p = { p with caps := (testDoors p).caps } := by
  rw [testDoors_eq]

theorem testDoors_row (p : Part) :
    (testDoors p).caps.doors = if doorsHold p then some 0 else none := by
  rw [testDoors_eq]

theorem testDoors_withdraws (h : p.stop.door = some d) (entry : hasFn p .doorStatus = true)
    (age : (recordAt p d.source).age ≤ doorStale p) (shut : ShutIn d.closed p) (noZone : d.released = 0) :
    (testDoors p).caps.doors = none := by
  rw [testDoors_row, (doorsHold_fresh h entry age).mpr ⟨shut, noZone⟩]
  rfl

theorem testDoors_sets (h : p.stop.door = some d) (entry : hasFn p .doorStatus = true)
    (age : (recordAt p d.source).age ≤ doorStale p) (zones : ¬ (ShutIn d.closed p ∧ d.released = 0)) :
    (testDoors p).caps.doors = some 0 := by
  have holds : doorsHold p = true := by
    rw [← Bool.not_eq_false, doorsHold_fresh h entry age]
    exact zones
  rw [testDoors_row, if_pos holds]

end

/-! ### The trip phase (R134 to R136) -/

section
variable {p : Part}

theorem tripPhase_reaches (running : p.stop.phase = .running) (zone : releasedZones p ≠ 0) :
    tripPhase p = changeToAtStop p := by
  simp only [tripPhase, running]
  exact if_pos (bne_iff_ne.mpr zone)

theorem tripPhase_leaves (atStop : p.stop.phase = .atStop) (noZone : releasedZones p = 0)
    (shut : allClosed p = true) : tripPhase p = changeToRunning p := by
  simp [tripPhase, atStop, noZone, shut]

theorem tripPhase_stands (h : (p.stop.phase = .running ∧ releasedZones p = 0)
    ∨ (p.stop.phase = .atStop ∧ (releasedZones p ≠ 0 ∨ ¬ allClosed p = true))) : tripPhase p = p := by
  rcases h with ⟨running, noZone⟩ | ⟨atStop, zones⟩
  · simp [tripPhase, running, noZone]
  · have stands : ¬ (releasedZones p == 0 && allClosed p) = true := by
      rw [Bool.and_eq_true, beq_iff_eq, not_and_or]
      exact zones
    simp only [tripPhase, atStop]
    exact if_neg stands

/-- A change of trip phase leaves the door status, the counters and the flags, and of the rest of the part
changes the sound unit and the DEPARTURE row alone. -/
theorem tripPhase_frame (p : Part) : tripPhase p = { p with
    stop := { p.stop with
      phase := (tripPhase p).stop.phase
      request := (tripPhase p).stop.request
      push := (tripPhase p).stop.push
      doorOpen := (tripPhase p).stop.doorOpen }
    sound := (tripPhase p).sound
    caps := { p.caps with departure := (tripPhase p).caps.departure } } := by
  unfold tripPhase changeToRunning
  split
  · split <;> rfl
  · split
    · dsimp only
      split <;> rfl
    · rfl

theorem changeToAtStop_depart (p : Part) : (changeToAtStop p).sound.depart.state = .idle :=
  stopSource_idle _ .depart _

theorem changeToRunning_stop (p : Part) :
    (changeToRunning p).stop = { p.stop with phase := .running, doorOpen := 0 } := by
  unfold changeToRunning
  dsimp only
  split <;> rfl

theorem changeToRunning_unwarned (h : departureWarning p = false) :
    (changeToRunning p).sound = p.sound := by
  simp [changeToRunning, h]

theorem changeToRunning_warned (h : departureWarning p = true) (live : cabLive p = true)
    (steps : (patternOf p.tables.cadence.words .depart).steps ≠ 0) :
    (changeToRunning p).sound.depart.state ≠ .idle := by
  rw [changeToRunning, if_pos h]
  exact request_notIdle (x := .depart) (cabActs_of_cabLive (p := p) live) steps

end

/-! ### A DOOR_STATUS store (R132, R134) -/

/-- The door status that a record carries. -/
def doorStatusOf (i : Fin 82) (x : SlotRecord) : DoorStatus :=
  { closed := lowByte (wordAt x.payload 0), released := lowByte (wordAt x.payload 1), source := i }

/-- A door status in place of the one held. -/
def withDoor (d : DoorStatus) (p : Part) : Part := { p with stop := { p.stop with door := some d } }

/-- The part after a door status, before the DOORS row is tested. -/
def doorServed (d : DoorStatus) (p : Part) : Part :=
  if cabLive p then advanceAssistances (clearDoorOpen (tripPhase (withDoor d p))) else withDoor d p

theorem deliver_doorStatus (i : Fin 82) (kind : Kind) (x : SlotRecord) (p : Part) :
    deliver i .doorStatus kind x p = testDoors (doorServed (doorStatusOf i x) p) := rfl

section
variable {p : Part} {d : DoorStatus}

theorem doorServed_idle (h : cabLive p = false) : doorServed d p = withDoor d p := by
  simp [doorServed, h]

theorem doorServed_live (h : cabLive p = true) :
    doorServed d p = advanceAssistances (clearDoorOpen (tripPhase (withDoor d p))) := by
  simp [doorServed, h]

/-- What a door status leaves, and that it is the one held. -/
theorem doorServed_frame (d : DoorStatus) (p : Part) : doorServed d p = { p with
    stop := { p.stop with
      phase := (doorServed d p).stop.phase
      request := (doorServed d p).stop.request
      push := (doorServed d p).stop.push
      doorOpen := (doorServed d p).stop.doorOpen
      assistance := (doorServed d p).stop.assistance
      door := some d }
    sound := (doorServed d p).sound
    caps := { p.caps with departure := (doorServed d p).caps.departure } } := by
  cases h : cabLive p with
  | false =>
    rw [doorServed_idle h]
    rfl
  | true =>
    rw [doorServed_live h, tripPhase_frame]
    rfl

/-- The parts of the stop unit that a door status changes where the cab is live (R134). -/
theorem doorServed_stop (h : cabLive p = true) : (doorServed d p).stop = {
    (tripPhase (withDoor d p)).stop with
      doorOpen := (tripPhase (withDoor d p)).stop.doorOpen &&& d.closed &&& d.released
      assistance := Vector.ofFn fun z => advanceAssistance (d.closed.getLsbD z.val) p.stop.assistance[z] } := by
  rw [doorServed_live h, tripPhase_frame]
  rfl

theorem doorServed_sound (h : cabLive p = true) :
    (doorServed d p).sound = (tripPhase (withDoor d p)).sound := by
  rw [doorServed_live h]
  rfl

theorem doorServed_assistance (h : cabLive p = true) (z : Fin 8) :
    (doorServed d p).stop.assistance[z] =
      advanceAssistance (d.closed.getLsbD z.val) p.stop.assistance[z] := by
  rw [doorServed_stop h]
  simp

/-- The flag by its state (R138). -/
theorem advanceAssistance_eq (closed : Bool) (a : Assistance) : advanceAssistance closed a =
    match a with
    | .clear => .clear
    | .waitingOpen => if closed = true then .waitingOpen else .opened
    | .opened => if closed = true then .clear else .opened := by
  cases a <;> rfl

/-- A request for the door, zone by zone: held before or pushed, and on its ground (R135, R137). -/
theorem getLsbD_doorOpen (held push mask closed released : Byte) (z : Nat) :
    ((held ||| (push &&& mask &&& released &&& closed)) &&& closed &&& released).getLsbD z =
      (closed.getLsbD z && released.getLsbD z
        && (held.getLsbD z || (push.getLsbD z && mask.getLsbD z))) := by
  simp only [BitVec.getLsbD_and, BitVec.getLsbD_or]
  cases closed.getLsbD z <;> cases released.getLsbD z <;> simp

/-- RUNNING to AT_STOP (R135, R137). -/
theorem doorServed_reaches (live : cabLive p = true) (running : p.stop.phase = .running)
    (zone : d.released ≠ 0) :
    (doorServed d p).stop.phase = .atStop ∧ (doorServed d p).stop.request = false
      ∧ (doorServed d p).stop.push = 0
      ∧ (doorServed d p).stop.doorOpen =
        (p.stop.doorOpen ||| (p.stop.push &&& zoneMask p &&& d.released &&& d.closed))
          &&& d.closed &&& d.released
      ∧ (doorServed d p).sound.depart.state = .idle := by
  have trip : tripPhase (withDoor d p) = changeToAtStop (withDoor d p) := tripPhase_reaches running zone
  rw [doorServed_stop live, doorServed_sound live, trip]
  exact ⟨rfl, rfl, rfl, rfl, changeToAtStop_depart _⟩

/-- AT_STOP to RUNNING (R136). -/
theorem doorServed_leaves (live : cabLive p = true) (atStop : p.stop.phase = .atStop)
    (noZone : d.released = 0) (shut : ShutIn d.closed p) :
    (doorServed d p).stop.phase = .running ∧ (doorServed d p).stop.request = p.stop.request
      ∧ (doorServed d p).stop.push = p.stop.push ∧ (doorServed d p).stop.doorOpen = 0
      ∧ (departureWarning p = false → (doorServed d p).sound = p.sound)
      ∧ (departureWarning p = true → (patternOf p.tables.cadence.words .depart).steps ≠ 0 →
        (doorServed d p).sound.depart.state ≠ .idle) := by
  have trip : tripPhase (withDoor d p) = changeToRunning (withDoor d p) :=
    tripPhase_leaves atStop noZone ((allClosed_iff rfl).mpr shut)
  rw [doorServed_stop live, doorServed_sound live, trip, changeToRunning_stop]
  exact ⟨rfl, rfl, rfl, by simp, changeToRunning_unwarned (p := withDoor d p),
    fun warned => changeToRunning_warned (p := withDoor d p) warned live⟩

/-- The trip phase stands, and the requests only lose their ground (R137). -/
theorem doorServed_stands (live : cabLive p = true)
    (h : (p.stop.phase = .running ∧ d.released = 0)
      ∨ (p.stop.phase = .atStop ∧ (d.released ≠ 0 ∨ ¬ ShutIn d.closed p))) :
    (doorServed d p).stop.phase = p.stop.phase ∧ (doorServed d p).stop.request = p.stop.request
      ∧ (doorServed d p).stop.push = p.stop.push
      ∧ (doorServed d p).stop.doorOpen = p.stop.doorOpen &&& d.closed &&& d.released
      ∧ (doorServed d p).sound = p.sound := by
  have closed : allClosed (withDoor d p) = true ↔ ShutIn d.closed p := allClosed_iff rfl
  have trip : tripPhase (withDoor d p) = withDoor d p := tripPhase_stands (by rw [closed]; exact h)
  rw [doorServed_stop live, doorServed_sound live, trip]
  exact ⟨rfl, rfl, rfl, rfl, rfl⟩

/-- The record and the settings that the test of the row reads stand. -/
theorem doorServed_reads (d : DoorStatus) (p : Part) :
    (doorServed d p).stop.door = some d
      ∧ hasFn (doorServed d p) .doorStatus = hasFn p .doorStatus
      ∧ recordAt (doorServed d p) d.source = recordAt p d.source
      ∧ doorStale (doorServed d p) = doorStale p
      ∧ (ShutIn d.closed (doorServed d p) ↔ ShutIn d.closed p) := by
  rw [doorServed_frame]
  exact ⟨rfl, rfl, rfl, rfl, Iff.rfl⟩

/-- The DOORS row after a fresh door status (R133). -/
theorem doorServed_row (entry : hasFn p .doorStatus = true) (age : (recordAt p d.source).age ≤ doorStale p) :
    (ShutIn d.closed p → d.released = 0 → (testDoors (doorServed d p)).caps.doors = none)
      ∧ (¬ ShutIn d.closed p ∨ d.released ≠ 0 → (testDoors (doorServed d p)).caps.doors = some 0) := by
  obtain ⟨held, hasEntry, record, stale, shutIn⟩ := doorServed_reads d p
  rw [← hasEntry] at entry
  rw [← record, ← stale] at age
  rw [← shutIn]
  exact ⟨testDoors_withdraws held entry age, fun h => testDoors_sets held entry age (not_and_or.mpr h)⟩

end

section
variable {s : State}

theorem exec_doorStatusStale_stale (h : doorIsStale s.part = true) :
    exec .doorStatusStale s = .next { s with part := setRow .doors 0 s.part } :=
  when_true h

theorem exec_doorStatusStale_fresh (h : doorIsStale s.part = false) : exec .doorStatusStale s = .next s :=
  when_false h

end

/-- Settles O40: a store by cab state and trip phase; then the event, by the age of the record. -/
theorem doorsRowFollowsDoorStatus : Obligations.DoorsRowFollowsDoorStatus := by
  refine ⟨fun i kind x p => ?_, fun s => ⟨fun stale => ?_, fun d held entry age => ⟨?_, ?_⟩⟩⟩
  · rw [deliver_doorStatus]
    intro q closed released allShut
    have tested : q = { doorServed (doorStatusOf i x) p with caps := q.caps } :=
      testDoors_frame _
    have stop : q.stop = (doorServed (doorStatusOf i x) p).stop := by rw [tested]
    have sound : q.sound = (doorServed (doorStatusOf i x) p).sound := by rw [tested]
    have frame := doorServed_frame (doorStatusOf i x) p
    refine ⟨?_, doorServed_row (d := doorStatusOf i x), fun idle => ?_,
      fun live => ⟨fun z => ?_, fun running zone => ?_, fun atStop noZone shut => ?_, fun h => ?_⟩, ?_⟩
    · rw [stop, frame]
      rfl
    · rw [stop, sound, doorServed_idle idle]
      exact ⟨rfl, rfl⟩
    · rw [stop]
      exact (doorServed_assistance live z).trans (advanceAssistance_eq _ _)
    · obtain ⟨phase, request, push, doorOpen, depart⟩ :=
        doorServed_reaches (d := doorStatusOf i x) live running zone
      rw [stop, sound]
      refine ⟨phase, request, push, fun z => ?_, depart⟩
      rw [doorOpen]
      exact getLsbD_doorOpen _ _ _ _ _ z.val
    · rw [stop, sound]
      exact doorServed_leaves live atStop noZone shut
    · obtain ⟨phase, request, push, doorOpen, sounds⟩ := doorServed_stands (d := doorStatusOf i x) live h
      rw [stop, sound]
      refine ⟨phase, request, push, fun z => ?_, sounds⟩
      rw [doorOpen, BitVec.getLsbD_and, BitVec.getLsbD_and]
      rfl
    · rw [tested, frame]
      exact ⟨rfl, rfl, rfl, rfl, rfl, rfl, rfl, rfl, rfl⟩
  · exact exec_doorStatusStale_stale (doorIsStale_iff.mpr stale)
  · exact exec_doorStatusStale_fresh (doorIsStale_fresh held entry age)
  · split
    next zones => exact testDoors_withdraws held entry age zones.1 zones.2
    next zones => exact testDoors_sets held entry age zones

end Sys2Proof.Machine
end

section
/-! ## The counters of a STOP_BUTTON cell and the stop push (R139 to R141): O41 -/

namespace Sys2Proof.Machine

set_option Elab.async false

/-! ### A stop push by trip phase and zone (R140) -/

/-- The part with a push kept for a zone and a stop requested. -/
def pushKept (z : Fin 8) (p : Part) : Part :=
  { p with stop := { p.stop with push := p.stop.push ||| (1#8 <<< z.val), request := true } }

section
variable {p : Part} {d : DoorStatus} {z : Fin 8}

theorem askForStop_again (h : p.stop.request = true) : askForStop z p = pushKept z p := by
  simp only [askForStop, h]
  rfl

theorem askForStop_first (h : p.stop.request = false) :
    askForStop z p = request .stop (pushKept z p) := by
  simp only [askForStop, h]
  rfl

theorem askForStop_stop : (askForStop z p).stop = (pushKept z p).stop := by
  cases h : p.stop.request with
  | true => rw [askForStop_again h]
  | false => rw [askForStop_first h, request_chime_eq (x := .stop) rfl]

theorem askForStop_chime (acts : cabActs p = true) (first : p.stop.request = false)
    (steps : (patternOf p.tables.cadence.words .stop).steps ≠ 0) :
    (askForStop z p).sound.stop.state ≠ .idle := by
  rw [askForStop_first first]
  exact request_notIdle (x := .stop) acts steps

theorem stopPush_asks (held : p.stop.door = some d)
    (h : p.stop.phase = .running ∨ d.released.getLsbD z.val = false) : stopPush z p = askForStop z p := by
  rw [← releasedZones_some held] at h
  exact if_pos h

/-- At a stop a released zone is at its door. -/
theorem stopPush_released (held : p.stop.door = some d) (atStop : p.stop.phase = .atStop)
    (released : d.released.getLsbD z.val = true) :
    stopPush z p = if d.closed.getLsbD z.val then
      { p with stop := { p.stop with doorOpen := p.stop.doorOpen ||| (1#8 <<< z.val) } } else p := by
  rw [← releasedZones_some held] at released
  have atDoor : ¬ (p.stop.phase = .running ∨ zoneIn (releasedZones p) z = false) := by
    simp [atStop, zoneIn, released]
  rw [stopPush, if_neg atDoor, closedZones_some held]
  rfl

end

/-! ### A STOP_BUTTON store (R139, R141) -/

/-- A push is a change of a counter whose last value is known. -/
theorem pushed_iff {last : Option Byte} {now : Byte} :
    pushed last now = true ↔ ∃ b, last = some b ∧ b ≠ now := by
  cases last <;> simp [pushed]

/-- The counters of a record held as the last counters of a zone. -/
def countersHeld (z : Fin 8) (x : SlotRecord) (p : Part) : Part :=
  { p with stop := { p.stop with
    lastStop := p.stop.lastStop.set z (some (highByte (wordAt x.payload 1)))
    lastAssist := p.stop.lastAssist.set z (some (lowByte (wordAt x.payload 1))) } }

section
variable {x : SlotRecord} {p : Part} {z : Fin 8}

/-- The store for the zone that its word 0 names. -/
theorem buttonStore_eq (hz : z.val = (wordAt x.payload 0).toNat % 8) :
    buttonStore x p =
      if cabLive p && (zoneMask p).getLsbD z.val then
        if pushed p.stop.lastAssist[z] (lowByte (wordAt x.payload 1)) then
          assistancePush z (countersHeld z x p)
        else if pushed p.stop.lastStop[z] (highByte (wordAt x.payload 1)) then
          stopPush z (countersHeld z x p)
        else countersHeld z x p
      else countersHeld z x p := by
  obtain rfl : z = ⟨bitsOf (wordAt x.payload 0) 0 3, Nat.mod_lt _ (by decide)⟩ :=
    Fin.ext (by simp [bitsOf, hz])
  rfl

end

/-- Settles O41: a store by the zone and the counters; then a push by trip phase and zone. -/
theorem stopPushByPhaseAndZone : Obligations.StopPushByPhaseAndZone := by
  refine ⟨fun i kind x p z hz => ?_, fun p d z held => ⟨fun h => ?_, fun atStop released closed => ?_,
    fun atStop released closed => ?_⟩⟩
  · have store : deliver i .stopButton kind x p = _ := buttonStore_eq hz
    rw [store]
    intro stops assists counted acts stopPushed assistPushed
    have actsHere : (cabLive p && (zoneMask p).getLsbD z.val) = true ↔ acts := Bool.and_eq_true_iff
    have stopSeen : pushed p.stop.lastStop[z] stops = true ↔ stopPushed := pushed_iff
    have assistSeen : pushed p.stop.lastAssist[z] assists = true ↔ assistPushed := pushed_iff
    refine ⟨fun h => ?_, fun live stop noAssist => ?_, fun live assist => ?_⟩
    · rcases h with idle | ⟨noStop, noAssist⟩
      · exact if_neg (mt actsHere.mp idle)
      · rw [if_neg (mt assistSeen.mp noAssist), if_neg (mt stopSeen.mp noStop)]
        exact ite_self _
    · rw [if_pos (actsHere.mpr live), if_neg (mt assistSeen.mp noAssist)]
      exact if_pos (stopSeen.mpr stop)
    · rw [if_pos (actsHere.mpr live)]
      exact if_pos (assistSeen.mpr assist)
  · rw [stopLamp, stopPush_asks held h, askForStop_stop]
    exact ⟨rfl, rfl, fun again => by rw [askForStop_again again]; rfl,
      fun first acts steps => askForStop_chime acts first steps⟩
  · rw [stopPush_released held atStop released, if_pos closed]
  · rw [stopPush_released held atStop released, closed]
    rfl

end Sys2Proof.Machine
end

section
/-! ## A sound channel and what plays on it (R151 to R157)

`ChannelsOk` speaks of pairs of sources. Taken apart by channel it says that the channel is quiet, or that one
source leads it and what is suspended there is suspended under that source. The arbiter's decisions are read
and kept in this form. -/

namespace Sys2Proof.Machine

set_option Elab.async false

/-! ### Priority (R151) -/

/-- A channel's sources are those of higher priority than a source, the source, and the rest. -/
theorem members_split (x : Source) : ∃ ys, members (channelOf x) = higherThan x ++ x :: ys := by
  cases x <;> exact ⟨_, rfl⟩

theorem higherThan_split {x y : Source} (h : y ∈ higherThan x) :
    ∃ ys, higherThan x = higherThan y ++ y :: ys := by
  revert h
  cases x <;> cases y <;> simp [higherThan]

theorem higherThan_trans {x y z : Source} (h : y ∈ higherThan x) (k : x ∈ higherThan z) : y ∈ higherThan z := by
  revert h k
  cases x <;> cases y <;> cases z <;> decide

/-- Of two sources of a channel one has the higher priority. -/
theorem higherThan_total {x y : Source} (h : channelOf y = channelOf x) (hne : y ≠ x) (k : y ∉ higherThan x) :
    x ∈ higherThan y := by
  revert h hne k
  cases x <;> cases y <;> decide

theorem ne_of_mem_higherThan {x y : Source} (h : y ∈ higherThan x) : y ≠ x := by
  rintro rfl
  exact not_mem_higherThan_self y h

theorem depart_notMem_higherThan (x : Source) : .depart ∉ higherThan x := by
  cases x <;> decide

/-- A channel has no source of a kind, or one of that kind with none above it. -/
theorem none_or_highest (ch : Channel) (P : Source → Prop) :
    (∀ x, channelOf x = ch → ¬ P x) ∨ ∃ y, channelOf y = ch ∧ P y ∧ ∀ z ∈ higherThan y, ¬ P z := by
  by_contra h
  obtain ⟨some, noHighest⟩ := not_or.mp h
  push Not at some noHighest
  obtain ⟨x, hx, px⟩ := some
  induction hn : (higherThan x).length using Nat.strong_induction_on generalizing x with
  | _ n ih =>
    obtain ⟨z, hz, pz⟩ := noHighest x hx px
    obtain ⟨ys, split⟩ := higherThan_split hz
    refine ih (higherThan z).length ?_ z ((channelOf_of_mem_higherThan hz).trans hx) pz rfl
    rw [← hn, split, List.length_append, List.length_cons]
    omega

/-! ### What a source could do -/

theorem canPlay_congr {a b : Sound} {z : Source} (h : getSource b z = getSource a z) :
    CanPlay b z ↔ CanPlay a z := by
  unfold CanPlay
  rw [isReady_congr h, h]

theorem completesAtOnce_congr {a b : Sound} {z : Source} (h : getSource b z = getSource a z) :
    CompletesAtOnce b z ↔ CompletesAtOnce a z := by
  unfold CompletesAtOnce
  rw [isReady_congr h, h]

theorem isPlaying_iff {snd : Sound} {x : Source} :
    isPlaying snd x = true ↔ (getSource snd x).state = .playing := beq_iff_eq

/-- What plays is not ready, so it neither begins nor completes at an arbiter's decision. -/
theorem isReady_of_playing {snd : Sound} {x : Source} (h : (getSource snd x).state = .playing) :
    isReady snd x = false := by
  simp [isReady, h]

theorem isReady_of_suspended {snd : Sound} {x : Source} (h : (getSource snd x).state = .suspended) :
    isReady snd x = true := by
  simp [isReady, h]

/-! ### A channel in order (R155) -/

/-- Neither PLAYING nor SUSPENDED. -/
def IsQuiet (src : SoundSource) : Prop := src.state = .idle ∨ src.state = .waiting

/-- Nothing plays on the channel and nothing is suspended there. -/
def QuietChannel (snd : Sound) (ch : Channel) : Prop :=
  ∀ z, channelOf z = ch → IsQuiet (getSource snd z)

/-- Beside the PLAYING source `y` of its channel: quiet, or SUSPENDED under it in a pattern with steps. -/
def StandsUnder (y z : Source) (src : SoundSource) : Prop :=
  IsQuiet src ∨ src.state = .suspended ∧ y ∈ higherThan z ∧ src.pattern.steps ≠ 0

/-- A source plays on its channel, and the others of the channel stand under it. -/
structure LedBy (snd : Sound) (y : Source) : Prop where
  plays : (getSource snd y).state = .playing
  steps : (getSource snd y).pattern.steps ≠ 0
  others : ∀ z, channelOf z = channelOf y → z ≠ y → StandsUnder y z (getSource snd z)

/-- The channel is quiet or led. -/
def ChannelInOrder (snd : Sound) (ch : Channel) : Prop :=
  QuietChannel snd ch ∨ ∃ y, channelOf y = ch ∧ LedBy snd y

theorem IsQuiet.not_playing {src : SoundSource} (h : IsQuiet src) : src.state ≠ .playing := by
  rcases h with h | h <;> rw [h] <;> decide

theorem IsQuiet.not_suspended {src : SoundSource} (h : IsQuiet src) : src.state ≠ .suspended := by
  rcases h with h | h <;> rw [h] <;> decide

theorem StandsUnder.not_playing {y z : Source} {src : SoundSource} (h : StandsUnder y z src) :
    src.state ≠ .playing := by
  rcases h with quiet | ⟨suspended, -, -⟩
  · exact quiet.not_playing
  · rw [suspended]
    decide

theorem isQuiet_idle : IsQuiet SoundSource.idle := .inl rfl

/-- Only the leader plays. -/
theorem LedBy.eq_of_playing {snd : Sound} {y z : Source} (h : LedBy snd y) (hz : channelOf z = channelOf y)
    (k : (getSource snd z).state = .playing) : z = y := by
  by_contra hne
  exact (h.others z hz hne).not_playing k

theorem ChannelsOk.inOrder {snd : Sound} (ok : ChannelsOk snd) (ch : Channel) : ChannelInOrder snd ch := by
  obtain ⟨alone, under, steps⟩ := ok
  rcases none_or_highest ch (fun x => (getSource snd x).state = .playing) with silent | ⟨y, hy, plays, -⟩
  · refine .inl fun z hz => ?_
    cases hs : (getSource snd z).state with
    | idle => exact .inl hs
    | waiting => exact .inr hs
    | playing => exact absurd hs (silent z hz)
    | suspended =>
      obtain ⟨w, hw, above⟩ := List.any_eq_true.mp (under z hs)
      exact absurd (isPlaying_iff.mp above) (silent w ((channelOf_of_mem_higherThan hw).trans hz))
  · refine .inr ⟨y, hy, plays, steps y (.inl plays), fun z hz hne => ?_⟩
    cases hs : (getSource snd z).state with
    | idle => exact .inl (.inl hs)
    | waiting => exact .inl (.inr hs)
    | playing => exact absurd (alone z y hz (isPlaying_iff.mpr hs) (isPlaying_iff.mpr plays)) hne
    | suspended =>
      obtain ⟨w, hw, above⟩ := List.any_eq_true.mp (under z hs)
      obtain rfl := alone w y ((channelOf_of_mem_higherThan hw).trans hz) above (isPlaying_iff.mpr plays)
      exact .inr ⟨hs, hw, steps z (.inr hs)⟩

theorem channelsOk_of_inOrder {snd : Sound} (h : ∀ ch, ChannelInOrder snd ch) : ChannelsOk snd := by
  have leader : ∀ {z}, ¬ IsQuiet (getSource snd z) → ∃ y, channelOf z = channelOf y ∧ LedBy snd y := by
    intro z hz
    rcases h (channelOf z) with quiet | ⟨y, hy, led⟩
    · exact absurd (quiet z rfl) hz
    · exact ⟨y, hy.symm, led⟩
  refine ⟨fun x y hxy hx hy => ?_, fun x hx => ?_, fun x hx => ?_⟩
  · rw [isPlaying_iff] at hx hy
    obtain ⟨w, hw, led⟩ := leader fun quiet => quiet.not_playing hx
    exact (led.eq_of_playing hw hx).trans (led.eq_of_playing (hxy.symm.trans hw) hy).symm
  · obtain ⟨w, hw, led⟩ := leader fun quiet => quiet.not_suspended hx
    have hne : x ≠ w := by
      rintro rfl
      cases hx.symm.trans led.plays
    rcases led.others x hw hne with quiet | ⟨-, above, -⟩
    · exact absurd hx quiet.not_suspended
    · exact List.any_eq_true.mpr ⟨w, above, isPlaying_iff.mpr led.plays⟩
  · obtain ⟨w, hw, led⟩ := leader fun quiet => hx.elim quiet.not_playing quiet.not_suspended
    by_cases hne : x = w
    · exact hne ▸ led.steps
    · rcases led.others x hw hne with quiet | ⟨-, -, steps⟩
      · exact (hx.elim quiet.not_playing quiet.not_suspended).elim
      · exact steps

/-- The invariant reads the states and the patterns of the sources. -/
theorem ChannelsOk.congr {a b : Sound} (ok : ChannelsOk a)
    (h : ∀ z, (getSource b z).state = (getSource a z).state ∧ (getSource b z).pattern = (getSource a z).pattern) :
    ChannelsOk b := by
  obtain ⟨alone, under, steps⟩ := ok
  have same : isPlaying b = isPlaying a := funext fun z => by rw [isPlaying, isPlaying, (h z).1]
  refine ⟨by rwa [same], fun x hx => ?_, fun x hx => ?_⟩
  · rw [same]
    exact under x ((h x).1 ▸ hx)
  · rw [(h x).2]
    exact steps x ((h x).1 ▸ hx)

/-- A change on one channel that leaves it in order. -/
theorem ChannelsOk.of_channel {a b : Sound} {ch : Channel} (ok : ChannelsOk a)
    (others : ∀ z, channelOf z ≠ ch → getSource b z = getSource a z) (h : ChannelInOrder b ch) :
    ChannelsOk b := by
  refine channelsOk_of_inOrder fun ch' => ?_
  by_cases hch : ch' = ch
  · exact hch ▸ h
  rcases ok.inOrder ch' with quiet | ⟨y, rfl, led⟩
  · refine .inl fun z hz => ?_
    rw [others z (hz ▸ hch)]
    exact quiet z hz
  · refine .inr ⟨y, rfl, ?_, ?_, fun z hz hne => ?_⟩
    · rw [others y hch]
      exact led.plays
    · rw [others y hch]
      exact led.steps
    · rw [others z (hz ▸ hch)]
      exact led.others z hz hne

theorem ChannelInOrder.ledBy {snd : Sound} {x : Source} (h : ChannelInOrder snd (channelOf x))
    (hx : (getSource snd x).state = .playing) : LedBy snd x := by
  rcases h with quiet | ⟨y, hy, led⟩
  · exact absurd hx (quiet x rfl).not_playing
  · rwa [led.eq_of_playing hy.symm hx]

/-- A source that does not play takes another quiet state. -/
theorem ChannelInOrder.putQuiet {snd : Sound} {ch : Channel} {x : Source} {v : SoundSource}
    (h : ChannelInOrder snd ch) (hx : (getSource snd x).state ≠ .playing) (hv : IsQuiet v) :
    ChannelInOrder (putSource snd x v) ch := by
  rcases h with quiet | ⟨y, hy, led⟩
  · refine .inl fun z hz => ?_
    by_cases e : x = z
    · rw [e, getSource_putSource_self]
      exact hv
    · rw [getSource_putSource_ne e]
      exact quiet z hz
  · have hxy : x ≠ y := by
      rintro rfl
      exact hx led.plays
    refine .inr ⟨y, hy, ?_, ?_, fun z hz hne => ?_⟩
    · rw [getSource_putSource_ne hxy]
      exact led.plays
    · rw [getSource_putSource_ne hxy]
      exact led.steps
    · by_cases e : x = z
      · rw [e, getSource_putSource_self]
        exact .inl hv
      · rw [getSource_putSource_ne e]
        exact led.others z hz hne

/-! ### The source that plays -/

/-- What plays on a channel is a source of the channel that plays. -/
theorem playing_some {snd : Sound} {ch : Channel} {x : Source} (h : playing snd ch = some x) :
    channelOf x = ch ∧ (getSource snd x).state = .playing :=
  ⟨(mem_members x ch).mp (List.mem_of_find?_eq_some h), isPlaying_iff.mp (List.find?_some h)⟩

theorem playing_iff {snd : Sound} (ok : ChannelsOk snd) {ch : Channel} {x : Source} :
    playing snd ch = some x ↔ channelOf x = ch ∧ (getSource snd x).state = .playing := by
  refine ⟨playing_some, fun ⟨hx, plays⟩ => ?_⟩
  obtain ⟨alone, -, -⟩ := ok
  cases found : playing snd ch with
  | none => exact absurd (isPlaying_iff.mpr plays) (List.find?_eq_none.mp found x ((mem_members x ch).mpr hx))
  | some y =>
    obtain ⟨hy, hplays⟩ := playing_some found
    rw [alone y x (hy.trans hx.symm) (isPlaying_iff.mpr hplays) (isPlaying_iff.mpr plays)]

theorem playing_none_iff {snd : Sound} {ch : Channel} :
    playing snd ch = none ↔ ∀ x, channelOf x = ch → (getSource snd x).state ≠ .playing := by
  simp only [playing, List.find?_eq_none, mem_members, isPlaying_iff, ne_eq]

theorem playing_congr {a b : Sound} (h : ∀ z, (getSource b z).state = (getSource a z).state) (ch : Channel) :
    playing b ch = playing a ch := by
  have same : isPlaying b = isPlaying a := funext fun z => by rw [isPlaying, isPlaying, h z]
  rw [playing, playing, same]

/-! ### The arbiter's decision over a channel (R155, R157) -/

/-- The source above which the others are passed over stands. -/
theorem PassedOver.leader {a b : Sound} {y : Source} (h : PassedOver (higherThan y) a b) :
    getSource b y = getSource a y :=
  h.rest y fun k => not_mem_higherThan_self y k.1

section
variable (c : List Word) {snd : Sound}

/-- The highest source that can play begins its step. -/
theorem startBest_begins {y : Source} (hy : CanPlay snd y) (first : ∀ z ∈ higherThan y, ¬ CanPlay snd z) :
    ∃ passed, PassedOver (higherThan y) snd passed
      ∧ startBest c (members (channelOf y)) snd = beginStep c y passed := by
  obtain ⟨ys, split⟩ := members_split y
  obtain ⟨passed, passes, decided⟩ := startBest_passes c (higherThan y) (y :: ys) first
  obtain ⟨ready, steps⟩ := hy
  have same : getSource passed y = getSource snd y := passes.leader
  refine ⟨passed, passes, ?_⟩
  rw [split, decided, startBest, if_pos ((isReady_congr same).trans ready), if_neg (by rwa [same])]

/-- With no source of the channel that can play none begins. -/
theorem startBest_passesOver {ch : Channel} (h : ∀ z, channelOf z = ch → ¬ CanPlay snd z) :
    PassedOver (members ch) snd (startBest c (members ch) snd) := by
  obtain ⟨passed, passes, decided⟩ :=
    startBest_passes c (members ch) [] fun z hz => h z ((mem_members z ch).mp hz)
  rw [List.append_nil] at decided
  rw [decided]
  exact passes

/-- With none above it that can play a source goes on with its next step. -/
theorem continueOrYield_continues {x : Source} (h : ∀ y ∈ higherThan x, ¬ CanPlay snd y) :
    ∃ passed, PassedOver (higherThan x) snd passed
      ∧ continueOrYield c x (higherThan x) snd = beginStep c x passed := by
  obtain ⟨passed, passes, decided⟩ := continueOrYield_passes c x (higherThan x) [] h
  rw [List.append_nil] at decided
  exact ⟨passed, passes, decided⟩

/-- The highest source that can play above a source suspends it and begins its own step. -/
theorem continueOrYield_yields {x y : Source} (hy : y ∈ higherThan x) (can : CanPlay snd y)
    (first : ∀ z ∈ higherThan y, ¬ CanPlay snd z) :
    ∃ passed, PassedOver (higherThan y) snd passed
      ∧ continueOrYield c x (higherThan x) snd
        = beginStep c y (putSource passed x { getSource snd x with state := .suspended }) := by
  obtain ⟨ys, split⟩ := higherThan_split hy
  obtain ⟨passed, passes, decided⟩ := continueOrYield_passes c x (higherThan y) (y :: ys) first
  obtain ⟨ready, steps⟩ := can
  have same : getSource passed y = getSource snd y := passes.leader
  have sameX : getSource passed x = getSource snd x := passes.rest x fun h =>
    not_mem_higherThan_self x (higherThan_trans h.1 hy)
  refine ⟨passed, passes, ?_⟩
  rw [split, decided, continueOrYield, if_pos ((isReady_congr same).trans ready), if_neg (by rwa [same]), sameX]

end

/-- What a decision passes over is as it was, or completed. -/
theorem PassedOver.same_or_idle {xs : List Source} {a b : Sound} (h : PassedOver xs a b) (z : Source) :
    getSource b z = getSource a z ∨ getSource b z = SoundSource.idle := by
  by_cases k : z ∈ xs ∧ CompletesAtOnce a z
  · exact .inr (h.done z k.1 k.2)
  · exact .inl (h.rest z k)

theorem PassedOver.standsUnder {xs : List Source} {a b : Sound} (h : PassedOver xs a b) {y z : Source}
    (k : StandsUnder y z (getSource a z)) : StandsUnder y z (getSource b z) := by
  rcases h.same_or_idle z with e | e <;> rw [e]
  · exact k
  · exact .inl isQuiet_idle

/-! ### Decisions keep a channel in order -/

/-- Nothing plays on the channel, and what is suspended there has steps: the arbiter is to decide. -/
def Vacated (snd : Sound) (ch : Channel) : Prop :=
  ∀ z, channelOf z = ch → (getSource snd z).state ≠ .playing
    ∧ ((getSource snd z).state = .suspended → (getSource snd z).pattern.steps ≠ 0)

section
variable {snd : Sound}

theorem startBest_inOrder (c : List Word) {ch : Channel} (h : Vacated snd ch) :
    ChannelInOrder (startBest c (members ch) snd) ch := by
  rcases none_or_highest ch (CanPlay snd) with noneCan | ⟨y, rfl, can, first⟩
  · have passes := startBest_passesOver c noneCan
    refine .inl fun z hz => ?_
    cases ready : isReady snd z with
    | true =>
      have empty : (getSource snd z).pattern.steps = 0 := by
        by_contra steps
        exact noneCan z hz ⟨ready, steps⟩
      rw [passes.done z ((mem_members z ch).mpr hz) ⟨ready, empty⟩]
      exact isQuiet_idle
    | false =>
      rw [passes.rest z fun k => Bool.noConfusion (ready.symm.trans k.2.1)]
      cases hs : (getSource snd z).state with
      | idle => exact .inl hs
      | waiting => exact .inr hs
      | playing => exact absurd hs (h z hz).1
      | suspended => exact Bool.noConfusion (ready.symm.trans (isReady_of_suspended hs))
  · obtain ⟨passed, passes, decided⟩ := startBest_begins c can first
    rw [decided]
    refine .inr ⟨y, rfl, beginStep_state c y passed, ?_, fun z hz hne => ?_⟩
    · rw [beginStep_pattern, passes.leader]
      exact can.2
    · rw [beginStep_ne c hne.symm]
      refine passes.standsUnder ?_
      cases hs : (getSource snd z).state with
      | idle => exact .inl (.inl hs)
      | waiting => exact .inl (.inr hs)
      | playing => exact absurd hs (h z hz).1
      | suspended =>
        have steps := (h z hz).2 hs
        exact .inr ⟨hs, higherThan_total hz hne fun hm => first z hm ⟨isReady_of_suspended hs, steps⟩, steps⟩

/-- The decision at a step end of a leading source leaves it leading, or suspended under a higher one. -/
theorem continueOrYield_inOrder (c : List Word) {x : Source} (led : LedBy snd x) :
    ChannelInOrder (continueOrYield c x (higherThan x) snd) (channelOf x) := by
  rcases none_or_highest (channelOf x) (fun y => y ∈ higherThan x ∧ CanPlay snd y) with
    noneCan | ⟨y, hy, ⟨above, can⟩, first⟩
  · obtain ⟨passed, passes, decided⟩ := continueOrYield_continues (x := x) c fun y hy can =>
      noneCan y (channelOf_of_mem_higherThan hy) ⟨hy, can⟩
    rw [decided]
    refine .inr ⟨x, rfl, beginStep_state c x passed, ?_, fun z hz hne => ?_⟩
    · rw [beginStep_pattern, passes.leader]
      exact led.steps
    · rw [beginStep_ne c hne.symm]
      exact passes.standsUnder (led.others z hz hne)
  · obtain ⟨passed, passes, decided⟩ := continueOrYield_yields c above can fun z hz k =>
      first z hz ⟨higherThan_trans hz above, k⟩
    have hxy : x ≠ y := (ne_of_mem_higherThan above).symm
    rw [decided]
    refine .inr ⟨y, hy, beginStep_state c y _, ?_, fun z hz hne => ?_⟩
    · rw [beginStep_pattern, getSource_putSource_ne hxy, passes.leader]
      exact can.2
    · rw [beginStep_ne c hne.symm]
      by_cases e : x = z
      · subst e
        rw [getSource_putSource_self]
        exact .inr ⟨rfl, above, led.steps⟩
      · rw [getSource_putSource_ne e]
        refine passes.standsUnder ?_
        rcases led.others z (hz.trans hy) (Ne.symm e) with quiet | ⟨suspended, under, steps⟩
        · exact .inl quiet
        · exact .inr ⟨suspended, higherThan_trans above under, steps⟩

/-- The leader gone, the arbiter is to decide. -/
theorem LedBy.vacated {x : Source} (led : LedBy snd x) : Vacated (toIdle x snd) (channelOf x) := by
  intro z hz
  by_cases e : x = z
  · rw [← e, toIdle_self]
    exact ⟨by decide, nofun⟩
  · rw [toIdle_ne e]
    rcases led.others z hz (Ne.symm e) with quiet | ⟨suspended, -, steps⟩
    · exact ⟨quiet.not_playing, fun hs => absurd hs quiet.not_suspended⟩
    · exact ⟨by rw [suspended]; decide, fun _ => steps⟩

/-! ### The sound unit's operations keep the channels in order -/

/-- An advanced source still plays its pattern. -/
theorem advanced_some {x : Source} {src src' : SoundSource} (h : advanced x src = some src') :
    src'.state = src.state ∧ src'.pattern = src.pattern := by
  unfold advanced at h
  split at h
  · cases h
  · split at h
    · cases h
      exact ⟨rfl, rfl⟩
    · split at h
      · cases h
        exact ⟨rfl, rfl⟩
      · split at h
        · cases h
        · cases h
          exact ⟨rfl, rfl⟩

theorem startBest_other (c : List Word) {ch : Channel} {z : Source} (h : channelOf z ≠ ch) :
    getSource (startBest c (members ch) snd) z = getSource snd z :=
  startBest_outside c (fun hm => h ((mem_members z ch).mp hm)) snd

/-- A source that is among neither those decided over nor the one decided for stands. -/
theorem continueOrYield_outside (c : List Word) {x z : Source} {ys : List Source} (hx : x ≠ z) (h : z ∉ ys) :
    getSource (continueOrYield c x ys snd) z = getSource snd z := by
  induction ys generalizing snd with
  | nil => exact beginStep_ne c hx snd
  | cons y ys ih =>
    have hy : y ≠ z := fun e => h (by simp [e])
    have hys : z ∉ ys := fun hm => h (List.mem_cons_of_mem _ hm)
    unfold continueOrYield
    split
    · split
      · rw [ih hys, toIdle_ne hy]
      · rw [beginStep_ne c hy, getSource_putSource_ne hx]
    · exact ih hys

/-- A step end leaves the other channel alone. -/
theorem endStep_other (c : List Word) {x z : Source} (h : channelOf z ≠ channelOf x) :
    getSource (endStep c x snd) z = getSource snd z := by
  have hx : x ≠ z := by
    rintro rfl
    exact h rfl
  unfold endStep
  split
  · rw [startBest_other c h, toIdle_ne hx]
  · rw [continueOrYield_outside c hx fun hm => h (channelOf_of_mem_higherThan hm), getSource_putSource_ne hx]

theorem endStep_channelsOk (c : List Word) {x : Source} (ok : ChannelsOk snd)
    (hx : (getSource snd x).state = .playing) : ChannelsOk (endStep c x snd) := by
  refine ok.of_channel (ch := channelOf x) (fun z hz => endStep_other c hz) ?_
  have led := (ok.inOrder (channelOf x)).ledBy hx
  unfold endStep
  split
  · exact startBest_inOrder c led.vacated
  · next src advances =>
    obtain ⟨state, pattern⟩ := advanced_some advances
    refine continueOrYield_inOrder c ⟨?_, ?_, fun z hz hne => ?_⟩
    · rw [getSource_putSource_self, state, hx]
    · rw [getSource_putSource_self, pattern]
      exact led.steps
    · rw [getSource_putSource_ne hne.symm]
      exact led.others z hz hne

theorem stopSource_channelsOk (c : List Word) (x : Source) (ok : ChannelsOk snd) :
    ChannelsOk (stopSource c x snd) := by
  have inOrder := ok.inOrder (channelOf x)
  refine ok.of_channel (ch := channelOf x) (fun z hz => stopSource_other c snd hz) ?_
  unfold stopSource
  split
  · exact inOrder
  next hs => exact inOrder.putQuiet (by rw [hs]; decide) isQuiet_idle
  next hs => exact inOrder.putQuiet (by rw [hs]; decide) isQuiet_idle
  next hs => exact startBest_inOrder c (inOrder.ledBy hs).vacated

/-- A source that does not play takes another quiet state. -/
theorem ChannelsOk.putQuiet {x : Source} {v : SoundSource} (ok : ChannelsOk snd)
    (hx : (getSource snd x).state ≠ .playing) (hv : IsQuiet v) : ChannelsOk (putSource snd x v) :=
  ok.of_channel (ch := channelOf x) (fun z hz => getSource_putSource_ne (by rintro rfl; exact hz rfl) snd _)
    ((ok.inOrder _).putQuiet hx hv)

/-- A source as a request leaves it before the arbiter decides (R152). -/
def requestedSource (c : List Word) (x : Source) : SoundSource :=
  { SoundSource.idle with
    state := .waiting
    pattern := patternOf c x
    passesLeft := (patternOf c x).repeats }

theorem requestSource_channelsOk (c : List Word) (acts : Bool) (x : Source) (ok : ChannelsOk snd) :
    ChannelsOk (requestSource c acts x snd) := by
  refine ok.of_channel (ch := channelOf x) (fun z hz => requestSource_other c acts snd hz) ?_
  unfold requestSource
  split
  · next taken =>
    have idle : (getSource snd x).state = .idle := beq_iff_eq.mp (Bool.and_eq_true_iff.mp taken).2
    have waits : ChannelsOk (putSource snd x (requestedSource c x)) :=
      ok.putQuiet (by rw [idle]; decide) (.inr rfl)
    dsimp only
    split
    · next free =>
      obtain ⟨-, -, steps⟩ := waits
      exact startBest_inOrder c fun z hz => ⟨playing_none_iff.mp free z hz, fun hs => steps z (.inr hs)⟩
    · exact waits.inOrder _
  · exact ok.inOrder _

/-- A source that takes another phase or another mark. -/
theorem putSource_channelsOk {x : Source} {v : SoundSource} (ok : ChannelsOk snd)
    (state : v.state = (getSource snd x).state) (pattern : v.pattern = (getSource snd x).pattern) :
    ChannelsOk (putSource snd x v) := by
  refine ok.congr fun z => ?_
  by_cases e : x = z
  · subst e
    rw [getSource_putSource_self]
    exact ⟨state, pattern⟩
  · rw [getSource_putSource_ne e]
    exact ⟨rfl, rfl⟩

theorem countChannel_channelsOk (c : List Word) (ch : Channel) (ok : ChannelsOk snd) :
    ChannelsOk (countChannel c ch snd) := by
  unfold countChannel
  split
  · exact ok
  · next x hx =>
    have counted : ∀ n, ChannelsOk (putSource snd x { getSource snd x with phaseCount := n }) :=
      fun n => putSource_channelsOk ok rfl rfl
    dsimp only
    split
    · split
      · exact putSource_channelsOk (counted _) rfl rfl
      · split
        · exact endStep_channelsOk c (counted _) (by rw [getSource_putSource_self]; exact (playing_some hx).2)
        · exact counted _
    · exact ok

end

end Sys2Proof.Machine
end

section
/-! ## The sound unit's invariant through the operations of the blocks (R155, R159, R165): O60

The other blocks reach the sound unit by requests, withdrawals and its silencing; what they do besides leaves
the sources, the horn and the DEPARTURE row. -/

namespace Sys2Proof.Machine

set_option Elab.async false

/-! ### The sound unit's own operations -/

/-- Every source is IDLE and the horn OFF. -/
def IsSilent (snd : Sound) : Prop := (∀ x, (getSource snd x).state = .idle) ∧ snd.horn = .off

/-- From `a` to `b` the channels stay in order, and where sounds do not act silence stays. -/
structure KeepsChannels (acts : Bool) (a b : Sound) : Prop where
  channels : ChannelsOk a → ChannelsOk b
  silence : acts = false → IsSilent a → IsSilent b

namespace KeepsChannels

section
variable {acts : Bool}

theorem refl (a : Sound) : KeepsChannels acts a a := ⟨id, fun _ => id⟩

theorem trans {a b c : Sound} (h : KeepsChannels acts a b) (k : KeepsChannels acts b c) :
    KeepsChannels acts a c :=
  ⟨k.channels ∘ h.channels, fun idle => k.silence idle ∘ h.silence idle⟩

/-- Every source stands, and the horn, or the horn was not OFF. -/
theorem of_sources {a b : Sound} (sources : ∀ x, getSource b x = getSource a x := by intro x; cases x <;> rfl)
    (horn : acts = false → a.horn = .off → b.horn = .off := by exact fun _ => id) : KeepsChannels acts a b :=
  ⟨fun ok => ok.congr fun z => by rw [sources z]; exact ⟨rfl, rfl⟩,
    fun idle ⟨still, off⟩ => ⟨fun x => by rw [sources x]; exact still x, horn idle off⟩⟩

/-- An operation on a source that is not IDLE. -/
theorem of_sounding {a b : Sound} {x : Source} (hx : (getSource a x).state ≠ .idle)
    (channels : ChannelsOk a → ChannelsOk b) : KeepsChannels acts a b :=
  ⟨channels, fun _ ⟨still, _⟩ => absurd (still x) hx⟩

/-- An operation that does nothing in silence. -/
theorem of_channels {a b : Sound} (channels : ChannelsOk a → ChannelsOk b)
    (still : acts = false → (∀ x, (getSource a x).state = .idle) → b = a) : KeepsChannels acts a b :=
  ⟨channels, fun idle silent => by rwa [still idle silent.1]⟩

end

end KeepsChannels

section
variable {acts : Bool} (c : List Word) (snd : Sound)

theorem requestSource_keepsChannels (x : Source) : KeepsChannels acts snd (requestSource c acts x snd) :=
  .of_channels (requestSource_channelsOk c acts x) fun idle _ => by simp [requestSource, idle]

theorem stopSource_keepsChannels (x : Source) : KeepsChannels acts snd (stopSource c x snd) :=
  .of_channels (stopSource_channelsOk c x) fun _ still => by simp [stopSource, still x]

theorem countChannel_keepsChannels (ch : Channel) : KeepsChannels acts snd (countChannel c ch snd) :=
  .of_channels (countChannel_channelsOk c ch) fun _ still =>
    countChannel_silent (playing_none_iff.mpr fun x _ => by rw [still x]; decide)

theorem bellPressed_keepsChannels : KeepsChannels acts snd (bellPressed c acts snd) := by
  unfold bellPressed
  split
  · next marked =>
    exact .of_sounding (x := .driverBell) (by rw [getSource, marked.1]; decide)
      fun ok => putSource_channelsOk (x := .driverBell) ok rfl rfl
  · exact requestSource_keepsChannels c snd .driverBell

theorem bellReleased_keepsChannels : KeepsChannels acts snd (bellReleased snd) := by
  unfold bellReleased
  split
  next hs =>
    exact .of_sounding (x := .driverBell) (by rw [getSource, hs]; decide) fun ok =>
      ok.putQuiet (by rw [getSource, hs]; decide) isQuiet_idle
  next hs =>
    exact .of_sounding (x := .driverBell) (by rw [getSource, hs]; decide) fun ok =>
      putSource_channelsOk (x := .driverBell) ok rfl rfl
  next => exact .refl snd
  next => exact .refl snd

theorem sampleBell_keepsChannels (active level : Bool) :
    KeepsChannels acts snd (sampleBell c active acts level snd) := by
  have sampled : KeepsChannels acts snd (bellSampled level snd) := .of_sources
  unfold sampleBell
  dsimp only
  split
  · split
    · split
      · exact sampled.trans (bellPressed_keepsChannels c _)
      · exact sampled
    · exact sampled.trans (bellReleased_keepsChannels _)
  · exact sampled

/-- The horn button acts in ACTIVATING, ACTIVE and HOLD alone (R163). -/
theorem sampleHorn_keepsChannels (level : Bool) : KeepsChannels acts snd (sampleHorn acts level snd) := by
  unfold sampleHorn
  dsimp only
  split
  · next recognised =>
    have acting : acts = true := (Bool.and_eq_true_iff.mp recognised).2
    unfold hornRecognised
    split
    · exact .of_sources (horn := fun idle => Bool.noConfusion (acting.symm.trans idle))
    · exact .of_sources (horn := fun _ _ => rfl)
    · exact .of_sources
  · exact .of_sources

theorem sampleAck_keepsChannels (level : Bool) : KeepsChannels acts snd (sampleAck c level snd) := by
  have sampled : KeepsChannels acts snd (ackSampled level snd) := .of_sources
  unfold sampleAck
  dsimp only
  split
  · exact sampled.trans (stopSource_keepsChannels c _ .alarm)
  · exact sampled

end

/-! ### What a change of the part needs -/

/-- From `p` to `q` the sound unit's invariant is kept. -/
structure KeepsSound (p q : Part) : Prop where
  keeps : SoundOk p → SoundOk q

namespace KeepsSound

theorem refl (p : Part) : KeepsSound p p := ⟨id⟩

theorem trans {p q r : Part} (a : KeepsSound p q) (b : KeepsSound q r) : KeepsSound p r :=
  ⟨b.keeps ∘ a.keeps⟩

/-- Through either branch of a test. -/
theorem ite {p a b : Part} {c : Prop} [Decidable c] (ha : c → KeepsSound p a) (hb : ¬ c → KeepsSound p b) :
    KeepsSound p (if c then a else b) := by
  split
  · next h => exact ha h
  · next h => exact hb h

theorem foldl {α : Type} {f : Part → α → Part} (h : ∀ p x, KeepsSound p (f p x)) (xs : List α) (p : Part) :
    KeepsSound p (xs.foldl f p) := by
  induction xs generalizing p with
  | nil => exact .refl p
  | cons x xs ih => exact (h p x).trans (ih _)

/-- A change of the sound unit that the DEPARTURE row follows. -/
theorem of_channels {p q : Part} (channels : KeepsChannels (cabActs p) p.sound q.sound)
    (row : q.caps.departure = departureRow p.sound q.sound p.caps.departure := by rfl)
    (acts : cabActs q = false → cabActs p = false := by exact id) : KeepsSound p q :=
  ⟨fun ⟨inOrder, follows, silent⟩ => ⟨channels.channels inOrder,
    by rw [row]; exact departureRow_agrees p.sound q.sound p.caps.departure follows,
    fun idle => channels.silence (acts idle) (silent (acts idle))⟩⟩

/-- A change that leaves the sources, the horn and the DEPARTURE row. -/
theorem update {p q : Part}
    (sources : ∀ x, getSource q.sound x = getSource p.sound x := by intro x; cases x <;> rfl)
    (horn : q.sound.horn = p.sound.horn := by rfl)
    (row : q.caps.departure = p.caps.departure := by rfl)
    (acts : cabActs q = false → cabActs p = false := by exact id) : KeepsSound p q := by
  have depart : q.sound.depart = p.sound.depart := sources .depart
  refine .of_channels (.of_sources sources fun _ => horn.trans) ?_ acts
  rw [row, departureRow_same _ (by rw [depart])]

end KeepsSound

theorem withSound_keepsSound {p : Part} {snd : Sound} (h : KeepsChannels (cabActs p) p.sound snd) :
    KeepsSound p (withSound snd p) := .of_channels h

/-- The sound unit silenced meets the invariant whatever was before (R165). -/
theorem soundOk_soundOff (p : Part) : SoundOk (soundOff p) := by
  obtain ⟨channels, -, -⟩ := soundOk_reset
  refine ⟨channels.congr fun z => ?_, rfl, fun _ => ⟨fun x => ?_, rfl⟩⟩
  · cases z <;> exact ⟨rfl, rfl⟩
  · cases x <;> rfl

theorem soundOff_keepsSound (p q : Part) : KeepsSound p (soundOff q) := ⟨fun _ => soundOk_soundOff q⟩

/-- A reset of the blocks meets the invariant whatever was before (R166). -/
theorem reset_keepsSound (p : Part) {q : Part} (h : UnitsReset q) : KeepsSound p q := by
  obtain ⟨-, ⟨n, caps⟩, -, -, -, sound⟩ := h
  have fromReset : KeepsSound State.reset.part q :=
    .update (sources := by rw [sound]; exact fun _ => rfl) (horn := by rw [sound]; rfl) (row := by rw [caps]; rfl)
      (acts := fun _ => rfl)
  exact ⟨fun _ => fromReset.keeps soundOk_reset⟩

/-! ### Sound unit -/

theorem request_keepsSound (x : Source) (p : Part) : KeepsSound p (request x p) :=
  withSound_keepsSound (requestSource_keepsChannels _ _ x)

theorem withdrawSource_keepsSound (x : Source) (p : Part) : KeepsSound p (withdrawSource x p) :=
  withSound_keepsSound (stopSource_keepsChannels _ _ x)

theorem ageSteps_keepsSound (p : Part) : KeepsSound p (ageSteps p) :=
  .of_channels ⟨fun ok => ok.congr fun z => by cases z <;> exact ⟨rfl, rfl⟩,
    fun _ ⟨still, off⟩ => ⟨fun x => by rw [← still x]; cases x <;> rfl, off⟩⟩
    (departureRow_same _ Iff.rfl).symm

/-- A horn that is ON counts, is cut or turned off (R163). -/
theorem hornOn_keepsSound {p q : Part} (on : p.sound.horn = .on)
    (sources : ∀ x, getSource q.sound x = getSource p.sound x := by intro x; cases x <;> rfl)
    (row : q.caps.departure = p.caps.departure := by rfl) (cab : q.cab = p.cab := by rfl) : KeepsSound p q := by
  have depart : q.sound.depart = p.sound.depart := sources .depart
  refine .of_channels (.of_sources sources fun _ off => nomatch on.symm.trans off) ?_ (by rw [cabActs, cab]; exact id)
  rw [row, departureRow_same _ (by rw [depart])]

theorem countHorn_keepsSound (wasOn : Bool) (p : Part) : KeepsSound p (countHorn wasOn p) :=
  .ite (fun ⟨on, _⟩ => .ite (fun _ => hornOn_keepsSound on) (fun _ => .ite (fun _ => hornOn_keepsSound on)
    (fun _ => .update))) (fun _ => .refl p)

/-- The sound unit's work at a cycle start (R153). -/
theorem soundCycle_keepsSound (p : Part) : KeepsSound p (soundCycle p) := by
  refine .trans (withSound_keepsSound ?_) (countHorn_keepsSound _ _)
  have buttons := ((sampleBell_keepsChannels (acts := cabActs p) p.tables.cadence.words p.sound
    (p.cab.state == .active) p.lines.bellBtn).trans (sampleHorn_keepsChannels _ p.lines.hornBtn)).trans
    (sampleAck_keepsChannels p.tables.cadence.words _ p.lines.ackBtn)
  exact (buttons.trans (countChannel_keepsChannels _ _ .bell)).trans (countChannel_keepsChannels _ _ .chime)

theorem endChannelPhase_keepsSound (ch : Channel) (p : Part) : KeepsSound p (endChannelPhase ch p) := by
  unfold endChannelPhase
  split
  · next x hx =>
    exact withSound_keepsSound (.of_sounding (x := x) (by rw [(playing_some hx).2]; decide)
      fun ok => putSource_channelsOk ok rfl rfl)
  · exact .refl p

theorem endChannelStep_keepsSound (ch : Channel) (p : Part) : KeepsSound p (endChannelStep ch p) := by
  unfold endChannelStep
  split
  · next x hx =>
    exact withSound_keepsSound (.of_sounding (x := x) (by rw [(playing_some hx).2]; decide)
      fun ok => endStep_channelsOk _ ok (playing_some hx).2)
  · exact .refl p

/-! ### Stop unit -/

theorem testDoors_keepsSound (p : Part) : KeepsSound p (testDoors p) :=
  .ite (fun _ => .update) (fun _ => .update)

/-- DEPART is withdrawn at a stop, and requested where the cab leaves it (R135, R136). -/
theorem tripPhase_keepsSound (p : Part) : KeepsSound p (tripPhase p) := by
  unfold tripPhase changeToAtStop changeToRunning
  split
  · exact .ite (fun _ => .trans .update (withdrawSource_keepsSound .depart _)) (fun _ => .refl p)
  · exact .ite (fun _ => .ite (fun _ => .trans .update (request_keepsSound .depart _)) (fun _ => .update))
      (fun _ => .refl p)

theorem doorStore_keepsSound (source : Fin 82) (r : SlotRecord) (p : Part) :
    KeepsSound p (doorStore source r p) := by
  have judged : ∀ q, KeepsSound q (advanceAssistances (clearDoorOpen (tripPhase q))) := fun q =>
    (tripPhase_keepsSound q).trans .update
  exact .trans (.ite (fun _ => .trans .update (judged _)) (fun _ => .update)) (testDoors_keepsSound _)

theorem stopPush_keepsSound (z : Fin 8) (p : Part) : KeepsSound p (stopPush z p) := by
  unfold stopPush askForStop
  exact .ite (fun _ => .ite (fun _ => .update) (fun _ => .trans .update (request_keepsSound .stop _)))
    (fun _ => .ite (fun _ => .update) (fun _ => .refl p))

theorem assistancePush_keepsSound (z : Fin 8) (p : Part) : KeepsSound p (assistancePush z p) :=
  (stopPush_keepsSound z p).trans (.trans .update (request_keepsSound .assist _))

theorem buttonStore_keepsSound (r : SlotRecord) (p : Part) : KeepsSound p (buttonStore r p) :=
  .ite (fun _ => .ite (fun _ => .trans .update (assistancePush_keepsSound _ _))
    (fun _ => .ite (fun _ => .trans .update (stopPush_keepsSound _ _)) (fun _ => .update)))
    (fun _ => .update)

/-! ### Junction unit -/

/-- A record that enters FAULT requests ALARM (R112, R160). -/
theorem enterFault_keepsSound (pos : Fin 4) (r : JunctionRecord) (cause : JunctionFault) (p : Part) :
    KeepsSound p (enterFault pos r cause p) := .trans .update (request_keepsSound .alarm _)

theorem appendRelease_keepsSound (x : Release) (p : Part) : KeepsSound p (appendRelease x p) :=
  .ite (fun _ => .update) (fun _ => .update)

theorem closeRecord_keepsSound (pos : Fin 4) (r : JunctionRecord) (p : Part) :
    KeepsSound p (closeRecord pos r p) := by
  have queued : KeepsSound p (released r p) := .ite (fun _ => appendRelease_keepsSound _ p) (fun _ => .refl p)
  rw [closeRecord_eq]
  exact queued.trans .update

theorem requestMarker_keepsSound (j : Six) (e : RouteEntry) (p : Part) :
    KeepsSound p (requestMarker j e p) := by
  unfold requestMarker
  split
  · exact .refl p
  · split
    · exact .trans .update (request_keepsSound .alarm _)
    · exact .ite (fun _ => .update) (fun _ => enterFault_keepsSound _ _ .noRoute p)

theorem commitMarker_keepsSound (j : Six) (p : Part) : KeepsSound p (commitMarker j p) := by
  unfold commitMarker
  split
  · exact .update
  · split
    · exact .refl p
    · split
      · exact .update
      · exact .refl p
      · exact .refl p
      · exact enterFault_keepsSound _ _ _ p
      · exact enterFault_keepsSound _ _ _ p

theorem clearMarker_keepsSound (j : Six) (p : Part) : KeepsSound p (clearMarker j p) := by
  unfold clearMarker
  split
  · exact .refl p
  · split
    · exact .refl p
    · exact closeRecord_keepsSound _ _ p

theorem newMarker_keepsSound (marker : Nat) (p : Part) : KeepsSound p (newMarker marker p) := by
  unfold newMarker
  split
  · exact .update
  · refine .ite (fun _ => ?_) (fun _ => .update)
    split
    · exact requestMarker_keepsSound _ _ p
    · exact commitMarker_keepsSound _ p
    · exact clearMarker_keepsSound _ p

theorem markersMissed_keepsSound (p : Part) : KeepsSound p (markersMissed p) :=
  .trans .update (request_keepsSound .alarm _)

theorem markerStore_keepsSound (r : SlotRecord) (p : Part) : KeepsSound p (markerStore r p) := by
  unfold markerStore
  dsimp only
  split
  · exact .update
  · exact .ite (fun _ => .update) (fun _ => .ite (fun _ => .trans .update (newMarker_keepsSound _ _))
      (fun _ => .trans (.trans .update (markersMissed_keepsSound _)) (newMarker_keepsSound _ _)))

theorem selectFor_keepsSound (p : Part) (pos : Fin 4) : KeepsSound p (selectFor p pos) := by
  unfold selectFor
  split
  · exact .refl p
  · refine .ite (fun _ => .refl p) (fun _ => ?_)
    split
    · exact .update
    · exact .update
    all_goals exact .ite (fun _ => .update) (fun _ => .refl p)

theorem select_keepsSound (x : BitVec 4) (p : Part) : KeepsSound p (select x p) :=
  .ite (fun _ => .update) (fun _ => .trans .update (.foldl selectFor_keepsSound _ _))

/-- A lost lock requests ALARM (R118). -/
theorem reportAt_keepsSound (x : PointReport) (p : Part) (pos : Fin 4) : KeepsSound p (reportAt x p pos) := by
  unfold reportAt
  split
  · exact .refl p
  · dsimp only
    split
    · exact .refl p
    · refine .ite (fun _ => ?_) (fun _ => .refl p)
      split
      · exact .ite (fun _ => .update) (fun _ => .update)
      · exact .ite (fun _ => enterFault_keepsSound _ _ .lockLost p) (fun _ => .refl p)
      · exact .ite (fun _ => .trans .update (request_keepsSound .alarm _)) (fun _ => .refl p)
      · exact .refl p

theorem pointStore_keepsSound (r : SlotRecord) (p : Part) : KeepsSound p (pointStore r p) :=
  .ite (fun _ => .foldl (reportAt_keepsSound _) _ p) (fun _ => .refl p)

theorem timeOut_keepsSound (pos : Fin 4) (p : Part) : KeepsSound p (timeOut pos p) := by
  unfold timeOut
  split
  · exact enterFault_keepsSound _ _ .timeout p
  · exact .refl p

theorem countRequest_keepsSound (p : Part) (pos : Fin 4) : KeepsSound p (countRequest p pos) := by
  unfold countRequest
  split
  · exact .ite (fun _ => .ite (fun _ => .trans .update (timeOut_keepsSound _ _)) (fun _ => .update))
      (fun _ => .refl p)
  · exact .refl p

theorem addDistance_keepsSound (delta : Nat) (p : Part) (pos : Fin 4) :
    KeepsSound p (addDistance delta p pos) := by
  unfold addDistance
  split
  · exact .ite (fun _ => .ite (fun _ => .trans .update (closeRecord_keepsSound _ _ _)) (fun _ => .update))
      (fun _ => .refl p)
  · exact .refl p

theorem takeDistance_keepsSound (delta : Nat) (p : Part) : KeepsSound p (takeDistance delta p) :=
  .ite (fun _ => .refl p) (fun _ => .foldl (addDistance_keepsSound delta) _ p)

theorem junctionCycle_keepsSound (p : Part) : KeepsSound p (junctionCycle p) := by
  have acknowledged : KeepsSound p (sampleJunctionAck p) :=
    .ite (fun _ => .trans .update (.ite (fun _ => .update) (fun _ => .refl _))) (fun _ => .update)
  have selected : KeepsSound p (testSelection (sampleJunctionAck p)) :=
    acknowledged.trans (.ite (fun _ => select_keepsSound 0 _) (fun _ => .refl _))
  exact selected.trans (.foldl countRequest_keepsSound _ _)

theorem nextItem_keepsSound (p : Part) : KeepsSound p (nextItem p).1 := by
  unfold nextItem giveSet
  split
  · exact .update
  · split
    · split
      · exact .refl p
      · exact .update
    · exact .refl p

/-! ### Traction unit -/

theorem speedStore_keepsSound (r : SlotRecord) (p : Part) : KeepsSound p (speedStore r p) :=
  .trans .update (takeDistance_keepsSound _ _)

theorem speedGoesStale_keepsSound (p : Part) : KeepsSound p (speedGoesStale p) :=
  .trans .update (.ite (fun _ => .update) (fun _ => .refl _))

theorem updateLock_keepsSound (p : Part) : KeepsSound p (updateLock p) :=
  .ite (fun _ => .ite (fun _ => .refl p) (fun _ => speedGoesStale_keepsSound p))
    (fun _ => .ite (fun _ => .ite (fun _ => .update) (fun _ => .update)) (fun _ => .update))

theorem tractionInputs_keepsSound (cs : CycleStart) (p : Part) : KeepsSound p (tractionInputs cs p) := by
  have input : ∀ q, KeepsSound q (speedInput q) := fun q =>
    .ite (fun _ => .refl q) (fun _ => .trans (.ite (fun _ => .update) (fun _ => .refl q))
      (updateLock_keepsSound _))
  exact .ite (fun _ => .update) (fun _ => .trans .update (input _))

/-- A forced episode requests ALARM (R96). -/
theorem judgeEpisode_keepsSound (p : Part) : KeepsSound p (judgeEpisode p) :=
  .ite (fun _ => .ite (fun _ => .update)
    (fun _ => .ite (fun _ => .trans .update (request_keepsSound .alarm _)) (fun _ => .refl p))) (fun _ => .refl p)

theorem evaluate_keepsSound (p : Part) : KeepsSound p (evaluate p) := by
  have judged : KeepsSound p (judgeEnvelope (judgeInputs p)) :=
    .trans .update (.ite (fun _ => .update) (fun _ => .refl _))
  exact (judged.trans (judgeEpisode_keepsSound _)).trans .update

theorem tractionResumes_keepsSound (p : Part) : KeepsSound p (tractionResumes p) := by
  unfold tractionResumes
  split
  · exact .refl p
  · exact .update

/-! ### Cab authority -/

/-- A cab that leaves its activation is silent (R56, R165). -/
theorem activationEnds_keepsSound (p q : Part) : KeepsSound p (activationEnds q) := soundOff_keepsSound p _

theorem beginActivation_keepsSound (n : Nat) (p : Part) : KeepsSound p (beginActivation n p) :=
  .trans (.update (acts := by exact nofun)) (.trans (.ite (fun _ => .refl _) (fun _ => .update)) (evaluate_keepsSound _))

theorem attempt_keepsSound (p : Part) : KeepsSound p (attempt p) :=
  .ite (fun _ => beginActivation_keepsSound _ p) (fun _ => .update)

theorem attemptIfDue_keepsSound (p : Part) : KeepsSound p (attemptIfDue p) :=
  .ite (fun _ => attempt_keepsSound p) (fun _ => .refl p)

/-- STABLED, which is silent, is left for INACTIVE or for ACTIVATING (R65). -/
theorem leaveStabled_keepsSound {p : Part} (due : stabledExitIsDue p = true) :
    KeepsSound p (leaveStabled p) := by
  simp only [stabledExitIsDue, Bool.and_eq_true, beq_iff_eq] at due
  obtain ⟨⟨stabled, -⟩, -⟩ := due
  have idle : cabActs p = false := by simp [cabActs, stabled]
  exact .ite (fun _ => .ite (fun _ => beginActivation_keepsSound _ p) (fun _ => .update (acts := fun _ => idle)))
    (fun _ => .update (acts := fun _ => idle))

theorem leaveStabledIfDue_keepsSound (p : Part) : KeepsSound p (leaveStabledIfDue p) :=
  .ite leaveStabled_keepsSound (fun _ => .refl p)

/-- STABLED is entered from INACTIVE, which is silent (R63). -/
theorem enterStabled_keepsSound {p : Part} (inactive : p.cab.state = .inactive) :
    KeepsSound p (enterStabled p) :=
  .update (acts := fun _ => by simp [cabActs, inactive])

theorem tractionTeardown_keepsSound (p : Part) : KeepsSound p (tractionTeardown p) := .update

theorem teardown_keepsSound (p : Part) : KeepsSound p (teardown p) :=
  (soundOff_keepsSound p _).trans (tractionTeardown_keepsSound _)

/-- The entry to HOLD stops DRIVER_BELL (R60, R165). -/
theorem enterHold_keepsSound (p : Part) : KeepsSound p (enterHold p) :=
  .trans (.update (acts := by exact nofun)) (withdrawSource_keepsSound .driverBell _)

theorem takeExit_keepsSound (p : Part) : KeepsSound p (takeExit p) := by
  unfold takeExit
  split
  · exact enterHold_keepsSound p
  · exact teardown_keepsSound p
  all_goals exact .refl p

theorem presentEvaluation_keepsSound (p : Part) : KeepsSound p (presentEvaluation p) :=
  .ite (fun _ => takeExit_keepsSound p) (fun _ => .refl p)

theorem keyLeavesDrive_keepsSound (x : PendingExit) (p : Part) : KeepsSound p (keyLeavesDrive x p) :=
  .ite (fun _ => .ite (fun _ => .trans .update (takeExit_keepsSound _)) (fun _ => .update)) (fun _ => .update)

theorem returnFromHold_keepsSound (p : Part) : KeepsSound p (returnFromHold p) :=
  .trans (.update (acts := by exact nofun)) (tractionResumes_keepsSound _)

theorem keyRecognised_keepsSound (k : Key) (p : Part) : KeepsSound p (keyRecognised k p) := by
  unfold keyRecognised
  split
  · exact .trans .update (attemptIfDue_keepsSound _)
  · exact .ite (fun _ => .refl p) (fun _ => activationEnds_keepsSound p p)
  · exact .ite (fun _ => .ite (fun _ => .refl p) (fun _ => .update)) (fun _ => keyLeavesDrive_keepsSound _ p)
  · split
    · exact returnFromHold_keepsSound p
    · exact teardown_keepsSound p
    · exact .refl p
  · exact .ite (fun _ => .trans .update (leaveStabledIfDue_keepsSound _))
      (fun _ => .ite (fun _ => .update) (fun _ => .refl p))

theorem deskCycle_keepsSound (p : Part) : KeepsSound p (deskCycle p) :=
  .ite (fun _ => .trans .update (keyRecognised_keepsSound _ _)) (fun _ => .update)

/-- A conflict in ACTIVE requests ALARM (R57). -/
theorem conflictInActive_keepsSound (v : CabState) (p : Part) : KeepsSound p (conflictInActive v p) :=
  .ite (fun _ => .refl p) (fun _ => .trans .update (request_keepsSound .alarm _))

theorem viewChanged_keepsSound (v : CabState) (p : Part) : KeepsSound p (viewChanged v p) := by
  have yields : KeepsSound p (activationYields p) := activationEnds_keepsSound p _
  unfold viewChanged
  split
  · split
    · exact yields
    · exact yields
    · exact .ite (fun _ => yields) (fun _ => .refl p)
    · exact .refl p
    · exact .refl p
  · exact conflictInActive_keepsSound v p
  · exact .ite (fun _ => .refl p) (fun _ => .update)
  · exact .refl p
  · exact .refl p

theorem takeView_keepsSound (v : CabState) (p : Part) : KeepsSound p (takeView v p) :=
  .ite (fun _ => .refl p) (fun _ => .trans .update (viewChanged_keepsSound _ _))

/-- The entry to ACTIVE requests DEPART with departure_warning ON (R54, R159). -/
theorem enterActive_keepsSound (p : Part) : KeepsSound p (enterActive p) := by
  have entered : KeepsSound p (activated p) := .update (acts := by exact nofun)
  have requested : KeepsSound p (warned p) :=
    .ite (fun _ => entered.trans (request_keepsSound .depart _)) (fun _ => entered)
  rw [enterActive_eq]
  exact requested.trans (.trans .update (conflictInActive_keepsSound _ _))

theorem activationFails_keepsSound (cause : FaultCause) (stage : Stage) (table : Option TableId) (p q : Part) :
    KeepsSound p (activationFails cause stage table q) := activationEnds_keepsSound p _

theorem checkTable_keepsSound (t : TableId) (p : Part) : KeepsSound p (checkTable t p) := by
  unfold checkTable
  refine .ite (fun _ => activationFails_keepsSound _ _ _ p p)
    (fun _ => .ite (fun _ => activationFails_keepsSound _ _ _ p p) (fun _ => ?_))
  split <;> exact .update

theorem stageCycle_keepsSound (p : Part) : KeepsSound p (stageCycle p) := by
  have counted : KeepsSound p (countStage p) := .update
  unfold stageCycle
  split
  · exact .refl p
  · exact .ite (fun _ => .update) (fun _ => counted)
  · split
    · exact checkTable_keepsSound _ p
    · exact .refl p
  · exact .ite (fun _ => activationFails_keepsSound _ _ _ p _) (fun _ => counted)
  · exact .ite (fun _ => .ite (fun _ => counted.trans (enterActive_keepsSound _)) (fun _ => counted))
      (fun _ => .update)

theorem tableChanged_keepsSound (t : TableId) (p : Part) : KeepsSound p (tableChanged t p) :=
  .ite (fun _ => activationFails_keepsSound _ _ _ p p) (fun _ => .refl p)

theorem presentLoss_keepsSound (x : Option LossChange) (p : Part) : KeepsSound p (presentLoss x p) := by
  unfold presentLoss
  split
  · exact .refl p
  · exact .ite (fun _ => activationFails_keepsSound _ _ _ p p) (fun _ => .refl p)
  · exact (attemptIfDue_keepsSound p).trans (leaveStabledIfDue_keepsSound _)

theorem scrubCycle_keepsSound (p : Part) : KeepsSound p (scrubCycle p) := by
  unfold scrubCycle
  refine .ite (fun _ => ?_) (fun _ => .refl p)
  dsimp only
  split
  · exact .trans .update (leaveStabledIfDue_keepsSound _)
  · exact .ite (fun _ => .update) (fun _ => .update)

/-! ### Every step -/

/-- Every operation of the blocks keeps the sound unit's invariant. -/
theorem BlockAct.keepsSound {p q : Part} (h : BlockAct p q) : KeepsSound p q := by
  cases h with
  | stands h =>
    obtain ⟨cab, caps, -, -, -, sound⟩ := h
    exact .update (by rw [sound]; exact fun _ => rfl) (by rw [sound]) (by rw [caps]) (by rw [cabActs, cab]; exact id)
  | reset _ h => exact reset_keepsSound p h
  | ageing => exact .trans .update (ageSteps_keepsSound _)
  | loss x => exact presentLoss_keepsSound x p
  | desk => exact deskCycle_keepsSound p
  | stage _ => exact stageCycle_keepsSound p
  | scrub => exact scrubCycle_keepsSound p
  | tractionInputs cs => exact tractionInputs_keepsSound cs p
  | evaluation => exact evaluate_keepsSound p
  | evaluated => exact presentEvaluation_keepsSound p
  | junctionCycle => exact junctionCycle_keepsSound p
  | doorTest => exact testDoors_keepsSound p
  | soundCycle => exact soundCycle_keepsSound p
  | brakeTest r => exact .ite (fun _ => .update) (fun _ => .refl p)
  | speed r => exact speedStore_keepsSound r p
  | marker r => exact markerStore_keepsSound r p
  | selection i r => exact .trans .update (select_keepsSound _ _)
  | point r => exact pointStore_keepsSound r p
  | button r => exact buttonStore_keepsSound r p
  | door i r => exact doorStore_keepsSound i r p
  | view v => exact takeView_keepsSound v p
  | item => exact nextItem_keepsSound p
  | lineLimit n => exact .update
  | table t => exact tableChanged_keepsSound t p
  | restrict n => exact .update
  | unrestrict => exact .update
  | stabled inactive => exact enterStabled_keepsSound inactive
  | wake => exact .trans .update (leaveStabledIfDue_keepsSound _)
  | attempt _ => exact attempt_keepsSound p
  | settled _ => exact .update
  | brakeTimeout _ => exact activationFails_keepsSound _ _ _ p p
  | entry _ => exact enterActive_keepsSound p
  | exit _ => exact takeExit_keepsSound p
  | scrubPass _ => exact .update
  | stabledExit due => exact leaveStabled_keepsSound due
  | speedStale _ => exact speedGoesStale_keepsSound p
  | speedLock _ => exact .update
  | selectionStale _ => exact select_keepsSound 0 p
  | requestTimeout _ => exact timeOut_keepsSound _ p
  | doorStale _ => exact .update
  | phaseEnd _ => exact endChannelPhase_keepsSound _ p
  | stepEnd _ => exact endChannelStep_keepsSound _ p
  | hornDone done => exact hornOn_keepsSound ((hornIsDone_iff p).mp done).1
  | hornStuck stuck => exact hornOn_keepsSound ((hornIsStuck_iff p).mp stuck).1

/-- Settles O60: each operation of the blocks keeps the invariant, and a step is a chain of them. -/
theorem stepKeepsTheSoundChannels : Obligations.StepKeepsTheSoundChannels := by
  intro s t h e
  have keeps : KeepsSound s.part t.part :=
    (step_acts e).lift .refl (fun a b => a.trans b) BlockAct.keepsSound
  exact keeps.keeps h

end Sys2Proof.Machine
end

section
/-! ## The end of a step (R149, R153 to R155, R157 to R159): O43 -/

namespace Sys2Proof.Machine

set_option Elab.async false

/-! ### What a step end comes to -/

section
variable (c : List Word) {snd : Sound} {x y : Source} {src : SoundSource}

/-- An advanced source goes on where none above it can play. -/
theorem endStep_continues (advances : advanced x (getSource snd x) = some src)
    (noneCan : ∀ z ∈ higherThan x, ¬ CanPlay snd z) :
    ∃ passed, PassedOver (higherThan x) (putSource snd x src) passed ∧ endStep c x snd = beginStep c x passed := by
  obtain ⟨passed, passes, decided⟩ := continueOrYield_continues (snd := putSource snd x src) c fun z hz can =>
    noneCan z hz ((canPlay_congr (getSource_putSource_ne (ne_of_mem_higherThan hz).symm snd src)).mp can)
  refine ⟨passed, passes, ?_⟩
  rw [endStep, advances, ← decided]

/-- An advanced source is suspended under the highest that can play. -/
theorem endStep_yields (advances : advanced x (getSource snd x) = some src) (above : y ∈ higherThan x)
    (can : CanPlay snd y) (first : ∀ z ∈ higherThan y, ¬ CanPlay snd z) :
    ∃ passed, PassedOver (higherThan y) (putSource snd x src) passed
      ∧ endStep c x snd = beginStep c y (putSource passed x { src with state := .suspended }) := by
  have same : ∀ z ∈ higherThan x, (CanPlay (putSource snd x src) z ↔ CanPlay snd z) := fun z hz =>
    canPlay_congr (getSource_putSource_ne (ne_of_mem_higherThan hz).symm snd src)
  obtain ⟨passed, passes, decided⟩ := continueOrYield_yields c above ((same y above).mpr can) fun z hz k =>
    first z hz ((same z (higherThan_trans hz above)).mp k)
  rw [getSource_putSource_self] at decided
  refine ⟨passed, passes, ?_⟩
  rw [endStep, advances, ← decided]

/-- A source that completes was not ready and is not, so the same sources can play as before. -/
theorem canPlay_after_completion (plays : (getSource snd x).state = .playing) (z : Source) :
    CanPlay (toIdle x snd) z ↔ CanPlay snd z := by
  by_cases e : x = z
  · subst e
    exact iff_of_false (fun can => Bool.noConfusion ((toIdle_not_ready x snd).symm.trans can.1))
      fun can => Bool.noConfusion ((isReady_of_playing plays).symm.trans can.1)
  · exact canPlay_congr (toIdle_ne e snd)

/-- A source completes, and the highest of its channel that can play begins. -/
theorem endStep_completes (completes : advanced x (getSource snd x) = none)
    (plays : (getSource snd x).state = .playing) (hy : channelOf y = channelOf x) (can : CanPlay snd y)
    (first : ∀ z ∈ higherThan y, ¬ CanPlay snd z) :
    ∃ passed, PassedOver (higherThan y) (toIdle x snd) passed ∧ endStep c x snd = beginStep c y passed := by
  have same := canPlay_after_completion plays
  obtain ⟨passed, passes, decided⟩ := startBest_begins c ((same y).mpr can) fun z hz k => first z hz ((same z).mp k)
  refine ⟨passed, passes, ?_⟩
  rw [endStep, completes, ← decided, hy]

/-- A source completes, and no other of its channel can play. -/
theorem endStep_quiets (completes : advanced x (getSource snd x) = none)
    (plays : (getSource snd x).state = .playing) (noneCan : ∀ z, channelOf z = channelOf x → ¬ CanPlay snd z) :
    PassedOver (members (channelOf x)) (toIdle x snd) (endStep c x snd) := by
  have passes := startBest_passesOver (snd := toIdle x snd) c fun z hz can =>
    noneCan z hz ((canPlay_after_completion plays z).mp can)
  rwa [endStep, completes]

/-- What is IDLE at a completion stays so. -/
theorem endStep_idle (completes : advanced x (getSource snd x) = none) (idle : (getSource snd y).state = .idle) :
    (getSource (endStep c x snd) y).state = .idle := by
  rw [endStep, completes]
  refine startBest_idle c _ ?_
  by_cases e : x = y
  · rw [e, toIdle_self]
    rfl
  · rwa [toIdle_ne e]

end

/-! ### The sources beside the one that ends its step -/

/-- From `a` to `b` a source completes where it is one of a list and has no step to play, and stands
otherwise (R157). -/
def CompletedOrSame (xs : List Source) (a b : Sound) (z : Source) : Prop :=
  (z ∈ xs → CompletesAtOnce a z → getSource b z = SoundSource.idle)
    ∧ (¬ (z ∈ xs ∧ CompletesAtOnce a z) → getSource b z = getSource a z)

/-- What a decision passes over, seen from a state and to a state in which the source is the same. -/
theorem PassedOver.completedOrSame {xs : List Source} {a passed before after : Sound} {z : Source}
    (h : PassedOver xs a passed) (was : getSource a z = getSource before z)
    (is : getSource after z = getSource passed z) : CompletedOrSame xs before after z := by
  have same := completesAtOnce_congr was
  refine ⟨fun hz k => ?_, fun k => ?_⟩
  · rw [is, h.done z hz (same.mpr k)]
  · rw [is, h.rest z fun hz => k ⟨hz.1, same.mp hz.2⟩, was]

/-- What plays or is IDLE stands through a decision. -/
theorem PassedOver.unready {xs : List Source} {a b : Sound} {z : Source} (h : PassedOver xs a b)
    (hz : isReady a z = false) : getSource b z = getSource a z :=
  h.rest z fun k => Bool.noConfusion (hz.symm.trans k.2.1)

/-! ### The DEPARTURE row at a step end (R159) -/

/-- The row stands where DEPART neither leaves nor enters IDLE. -/
theorem withSound_sameDepart {snd : Sound} {p : Part} (h : snd.depart.state = .idle ↔ p.sound.depart.state = .idle) :
    withSound snd p = { p with sound := snd } := by
  rw [withSound, departureRow_same _ h]

/-- A source that goes on, or is suspended, takes DEPART neither out of IDLE nor to it. -/
theorem depart_idle_iff {a b : Sound} {x : Source} (plays : (getSource a x).state = .playing)
    (self : (getSource b x).state ≠ .idle) (other : .depart ≠ x → getSource b .depart = getSource a .depart) :
    b.depart.state = .idle ↔ a.depart.state = .idle := by
  by_cases e : .depart = x
  · subst e
    exact iff_of_false self (by rw [getSource] at plays; rw [plays]; decide)
  · rw [show b.depart = a.depart from other e]

/-- Where DEPART does not leave IDLE the row is withdrawn or stands. -/
theorem departureRow_of_idle {a b : Sound} (h : a.depart.state = .idle → b.depart.state = .idle)
    (row : Option Nat) :
    departureRow a b row = if b.depart.state = .idle ∧ a.depart.state ≠ .idle then none else row := by
  by_cases ha : a.depart.state = .idle
  · rw [if_neg fun k => k.2 ha, departureRow_same row (iff_of_true (h ha) ha)]
  · by_cases hb : b.depart.state = .idle
    · simp [departureRow, hb, ha]
    · simp [departureRow, hb, ha]

/-! ### The progress of a source (R154, R158) -/

section
variable {x : Source} {src src' : SoundSource}

/-- The next step of the pass, or the first of a new one. -/
theorem advanced_of_progress
    (h : ((x = .driverBell → src.releaseMark = false) ∧ src.offset + 1 < src.pattern.steps
          ∧ src' = { src with offset := src.offset + 1 })
        ∨ (src.pattern.steps ≤ src.offset + 1 ∧ src' = { src with offset := 0 }
          ∧ ((x = .driverBell ∧ src.releaseMark = false)
            ∨ (x ≠ .driverBell ∧ src.pattern.repeats = 0)))
        ∨ (x ≠ .driverBell ∧ src.pattern.steps ≤ src.offset + 1 ∧ src.pattern.repeats ≠ 0
          ∧ 1 < src.passesLeft ∧ src' = { src with offset := 0, passesLeft := src.passesLeft - 1 })) :
    advanced x src = some src' := by
  unfold advanced
  rcases h with ⟨held, more, rfl⟩ | ⟨last, rfl, again⟩ | ⟨notBell, last, counted, left, rfl⟩
  · rw [if_neg fun k => Bool.noConfusion ((held k.1).symm.trans k.2), if_pos more]
  · have repeats : x = .driverBell ∨ src.pattern.repeats = 0 := again.imp (·.1) (·.2)
    have held : ¬ (x = .driverBell ∧ src.releaseMark = true) := fun k =>
      again.elim (fun bell => Bool.noConfusion (bell.2.symm.trans k.2)) fun other => other.1 k.1
    rw [if_neg held, if_neg (by omega), if_pos repeats]
  · rw [if_neg fun k => notBell k.1, if_neg (by omega), if_neg (not_or.mpr ⟨notBell, counted⟩), if_neg (by omega)]

/-- The last pass done, or DRIVER_BELL marked released. -/
theorem advanced_of_completion
    (h : (x = .driverBell ∧ src.releaseMark = true)
        ∨ (x ≠ .driverBell ∧ src.pattern.steps ≤ src.offset + 1 ∧ src.pattern.repeats ≠ 0
          ∧ src.passesLeft ≤ 1)) : advanced x src = none := by
  unfold advanced
  rcases h with marked | ⟨notBell, last, counted, left⟩
  · rw [if_pos marked]
  · rw [if_neg fun k => notBell k.1, if_neg (by omega), if_neg (not_or.mpr ⟨notBell, counted⟩), if_pos left]

end

/-! ### STEP_END -/

section
variable {s : State} {ch : Channel} {x : Source} {src : SoundSource}

theorem exec_stepEnd (hx : playing s.part.sound ch = some x)
    (isOver : stepIsOver (getSource s.part.sound x) = true) :
    exec (.stepEnd ch) s = .next { s with
      part := withSound (endStep s.part.tables.cadence.words x s.part.sound) s.part } := by
  show when (channelStepIsOver ch) (endChannelStep ch) s = _
  rw [when_true (by simpa [channelStepIsOver, hx] using isOver), endChannelStep, hx]

/-- The next step begins, and the sources above that cannot play are passed over (R155). -/
theorem exec_stepEnd_continues (hx : playing s.part.sound ch = some x)
    (isOver : stepIsOver (getSource s.part.sound x) = true)
    (advances : advanced x (getSource s.part.sound x) = some src)
    (noneCan : ∀ y ∈ higherThan x, ¬ CanPlay s.part.sound y) :
    ∃ p : Part, exec (.stepEnd ch) s = .next { s with part := p }
      ∧ BeganStep s.part.tables.cadence.words src (getSource p.sound x)
      ∧ (∀ y, y ≠ x → CompletedOrSame (higherThan x) s.part.sound p.sound y)
      ∧ SourcesAloneDiffer s.part.sound p.sound ∧ p = { s.part with sound := p.sound } := by
  have plays := (playing_some hx).2
  have desk := endStep_desk s.part.tables.cadence.words x s.part.sound
  obtain ⟨passed, passes, ended⟩ := endStep_continues s.part.tables.cadence.words advances noneCan
  have beside : ∀ y, y ≠ x → CompletedOrSame (higherThan x) s.part.sound
      (endStep s.part.tables.cadence.words x s.part.sound) y := fun y hne =>
    passes.completedOrSame (getSource_putSource_ne hne.symm _ _) (by rw [ended, beginStep_ne _ hne.symm])
  have depart := depart_idle_iff (b := endStep s.part.tables.cadence.words x s.part.sound) plays
    (by rw [ended, beginStep_state]; decide)
    fun hne => (beside .depart hne).2 fun k => depart_notMem_higherThan x k.1
  refine ⟨_, exec_stepEnd hx isOver, ?_, beside, desk.sourcesAloneDiffer, withSound_sameDepart depart⟩
  have advanced : getSource passed x = src := passes.leader.trans (getSource_putSource_self _ _ _)
  rw [withSound_sound, ended, ← advanced]
  exact beginStep_began _ x passed

/-- The source is suspended at its next step, and the highest that can play begins (R155). -/
theorem exec_stepEnd_yields {y : Source} (ok : ChannelsOk s.part.sound) (hx : playing s.part.sound ch = some x)
    (isOver : stepIsOver (getSource s.part.sound x) = true)
    (advances : advanced x (getSource s.part.sound x) = some src) (above : y ∈ higherThan x)
    (can : CanPlay s.part.sound y) (first : ∀ z ∈ higherThan y, ¬ CanPlay s.part.sound z) :
    ∃ p : Part, exec (.stepEnd ch) s = .next { s with part := p }
      ∧ getSource p.sound x = { src with state := .suspended }
      ∧ BeganStep s.part.tables.cadence.words (getSource s.part.sound y) (getSource p.sound y)
      ∧ playing p.sound ch = some y
      ∧ (∀ z, z ≠ x → z ≠ y → CompletedOrSame (higherThan y) s.part.sound p.sound z)
      ∧ SourcesAloneDiffer s.part.sound p.sound ∧ p = { s.part with sound := p.sound } := by
  obtain ⟨rfl, plays⟩ := playing_some hx
  have desk := endStep_desk s.part.tables.cadence.words x s.part.sound
  have inOrder := endStep_channelsOk s.part.tables.cadence.words ok plays
  have hxy : y ≠ x := ne_of_mem_higherThan above
  obtain ⟨passed, passes, ended⟩ := endStep_yields s.part.tables.cadence.words advances above can first
  have self : getSource (endStep s.part.tables.cadence.words x s.part.sound) x
      = { src with state := .suspended } := by
    rw [ended, beginStep_ne _ hxy, getSource_putSource_self]
  have beside : ∀ z, z ≠ x → z ≠ y → CompletedOrSame (higherThan y) s.part.sound
      (endStep s.part.tables.cadence.words x s.part.sound) z := fun z hzx hzy =>
    passes.completedOrSame (getSource_putSource_ne hzx.symm _ _)
      (by rw [ended, beginStep_ne _ hzy.symm, getSource_putSource_ne hzx.symm])
  have notDepart : .depart ≠ y := by
    rintro rfl
    exact depart_notMem_higherThan x above
  have depart := depart_idle_iff (b := endStep s.part.tables.cadence.words x s.part.sound) plays
    (by rw [self]; exact nofun) fun hne => (beside .depart hne notDepart).2 fun k => depart_notMem_higherThan y k.1
  refine ⟨_, exec_stepEnd hx isOver, self, ?_, ?_, beside, desk.sourcesAloneDiffer, withSound_sameDepart depart⟩
  · have before : getSource s.part.sound y
        = getSource (putSource passed x { src with state := .suspended }) y := by
      rw [getSource_putSource_ne hxy.symm, passes.leader, getSource_putSource_ne hxy.symm]
    rw [withSound_sound, ended, before]
    exact beginStep_began _ y _
  · refine (playing_iff inOrder).mpr ⟨channelOf_of_mem_higherThan above, ?_⟩
    rw [ended, beginStep_state]

/-- The source completes: IDLE, and the highest of the channel that can play begins, if there is one. -/
theorem exec_stepEnd_completes (ok : ChannelsOk s.part.sound) (hx : playing s.part.sound ch = some x)
    (isOver : stepIsOver (getSource s.part.sound x) = true)
    (completes : advanced x (getSource s.part.sound x) = none) :
    ∃ p : Part, exec (.stepEnd ch) s = .next { s with part := p }
      ∧ getSource p.sound x = SoundSource.idle
      ∧ (∀ y, channelOf y = ch → CanPlay s.part.sound y →
          (∀ z ∈ higherThan y, ¬ CanPlay s.part.sound z) →
          playing p.sound ch = some y
          ∧ BeganStep s.part.tables.cadence.words (getSource s.part.sound y) (getSource p.sound y)
          ∧ ∀ z, z ≠ x → z ≠ y → CompletedOrSame (higherThan y) s.part.sound p.sound z)
      ∧ ((∀ y, channelOf y = ch → ¬ CanPlay s.part.sound y) →
          playing p.sound ch = none
          ∧ ∀ z, z ≠ x → CompletedOrSame (members ch) s.part.sound p.sound z)
      ∧ SourcesAloneDiffer s.part.sound p.sound
      ∧ p = { s.part with
          sound := p.sound
          caps := { s.part.caps with
            departure :=
              if p.sound.depart.state = .idle ∧ s.part.sound.depart.state ≠ .idle then none
              else s.part.caps.departure } } := by
  obtain ⟨rfl, plays⟩ := playing_some hx
  have desk := endStep_desk s.part.tables.cadence.words x s.part.sound
  have inOrder := endStep_channelsOk s.part.tables.cadence.words ok plays
  have done : isReady (toIdle x s.part.sound) x = false := toIdle_not_ready x _
  have notReady : isReady s.part.sound x = false := isReady_of_playing plays
  refine ⟨_, exec_stepEnd hx isOver, ?_, fun y hy can first => ?_, fun noneCan => ?_,
    desk.sourcesAloneDiffer, ?_⟩
  · rcases none_or_highest (channelOf x) (CanPlay s.part.sound) with noneCan | ⟨y, hy, can, first⟩
    · have passes := endStep_quiets s.part.tables.cadence.words completes plays noneCan
      exact (passes.unready done).trans (toIdle_self x _)
    · obtain ⟨passed, passes, ended⟩ :=
        endStep_completes s.part.tables.cadence.words completes plays hy can first
      have hne : y ≠ x := by
        rintro rfl
        exact Bool.noConfusion (notReady.symm.trans can.1)
      rw [withSound_sound, ended, beginStep_ne _ hne, passes.unready done, toIdle_self]
  · obtain ⟨passed, passes, ended⟩ :=
      endStep_completes s.part.tables.cadence.words completes plays hy can first
    have hne : x ≠ y := by
      rintro rfl
      exact Bool.noConfusion (notReady.symm.trans can.1)
    refine ⟨(playing_iff inOrder).mpr ⟨hy, by rw [ended, beginStep_state]⟩, ?_, fun z hzx hzy =>
      passes.completedOrSame (toIdle_ne hzx.symm _) (by rw [withSound_sound, ended, beginStep_ne _ hzy.symm])⟩
    have before : getSource s.part.sound y = getSource passed y := by
      rw [passes.leader, toIdle_ne hne]
    rw [withSound_sound, ended, before]
    exact beginStep_began _ y passed
  · have passes := endStep_quiets s.part.tables.cadence.words completes plays noneCan
    refine ⟨?_, fun z hzx => passes.completedOrSame (toIdle_ne hzx.symm _) rfl⟩
    rw [withSound_sound, playing_none_iff]
    intro z hz
    rcases passes.same_or_idle z with same | idle
    · rw [same]
      exact (((ok.inOrder _).ledBy plays).vacated z hz).1
    · rw [idle]
      decide
  · have keepsIdle : s.part.sound.depart.state = .idle →
        (endStep s.part.tables.cadence.words x s.part.sound).depart.state = .idle :=
      endStep_idle (y := .depart) _ completes
    rw [withSound_sound, ← departureRow_of_idle keepsIdle]
    rfl

/-- At a cycle start at which the count of what plays reaches 0 with no phase left, the step ends (R153). -/
theorem countChannel_endsStep {cadence : List Word} {snd : Sound} (hx : playing snd ch = some x)
    (begun : (getSource snd x).begun = false) (count : (getSource snd x).phaseCount ≤ 1)
    (last : (getSource snd x).phaseOn = false ∨ (getSource snd x).offCount = 0) :
    countChannel cadence ch snd = endStep cadence x (putSource snd x { getSource snd x with phaseCount := 0 }) := by
  have zero : (getSource snd x).phaseCount - 1 = 0 := by omega
  rcases last with off | none
  · simp [countChannel, hx, begun, phaseIsOver, stepIsOver, zero, off]
  · simp [countChannel, hx, begun, phaseIsOver, stepIsOver, zero, none]

/-- STEP_END on the count at 0 does what the cycle start does that counts to 0. -/
theorem exec_stepEnd_counted (hx : playing s.part.sound ch = some x)
    (begun : (getSource s.part.sound x).begun = false) (count : (getSource s.part.sound x).phaseCount ≤ 1)
    (last : (getSource s.part.sound x).phaseOn = false ∨ (getSource s.part.sound x).offCount = 0) :
    exec (.stepEnd ch) { s with part := { s.part with
        sound := putSource s.part.sound x { getSource s.part.sound x with phaseCount := 0 } } } =
      .next { s with
        part := withSound (countChannel s.part.tables.cadence.words ch s.part.sound) s.part } := by
  have states : ∀ z, (getSource (putSource s.part.sound x { getSource s.part.sound x with phaseCount := 0 }) z).state
      = (getSource s.part.sound z).state := fun z => by
    by_cases e : x = z
    · subst e
      rw [getSource_putSource_self]
    · rw [getSource_putSource_ne e]
  have depart : (putSource s.part.sound x { getSource s.part.sound x with phaseCount := 0 }).depart.state
      = s.part.sound.depart.state := states .depart
  have isOver : stepIsOver { getSource s.part.sound x with phaseCount := 0 } = true := by
    rcases last with off | none
    · simp [stepIsOver, off]
    · simp [stepIsOver, none]
  rw [exec_stepEnd (x := x) ((playing_congr states ch).trans hx) (by rwa [getSource_putSource_self]),
    countChannel_endsStep hx begun count last]
  simp only [withSound, departureRow, depart]

end

/-- Settles O43: a source that has progressed goes on or is suspended, and one that has not completes. -/
theorem stepEndAdvancesTheChannel : Obligations.StepEndAdvancesTheChannel := by
  refine ⟨fun s ch x hx begun count last => exec_stepEnd_counted hx begun count last,
    fun s ch x ok hx isOver => ⟨fun src progress => ?_, fun completion => ?_⟩⟩
  · have advances := advanced_of_progress progress
    exact ⟨exec_stepEnd_continues hx isOver advances,
      fun y above can first => exec_stepEnd_yields ok hx isOver advances above can first⟩
  · obtain ⟨p, taken, idle, begins, quiets, alone, frame⟩ :=
      exec_stepEnd_completes ok hx isOver (advanced_of_completion completion)
    refine ⟨p, taken, idle, begins, fun noneCan => ?_, alone, frame⟩
    simpa only [CompletedOrSame, mem_members] using quiets noneCan

end Sys2Proof.Machine
end

section
/-! ## The management commands and their acceptance (R172, R183): O53 -/

namespace Sys2Proof.Machine

set_option Elab.async false

/-- What a management command does once it is accepted in sequence; for the other commands, nothing. -/
def taking : Instr → Part → Part
  | .status tag page => statusCommand tag page
  | .clearStatus tag => clearStatusCommand tag
  | .writeStage tag offset count words => writeStage tag offset.toNat count.toNat words
  | .transfer tag table index => transfer tag table index
  | .readEntry tag table index offset => readEntryCommand tag table index offset
  | .envelopePointer tag breakpoint => envelopePointer tag breakpoint
  | .envelopeData tag count values => envelopeData tag count.toNat values
  | .lockSetup tag => lockSetupCommand tag
  | .lock tag table => lockCommand lockTable tag 9 table
  | .unlock tag table => lockCommand unlockTable tag 10 table
  | .lockDown tag table => lockCommand lockDownTable tag 11 table
  | .setRestriction tag action value => setRestrictionCommand tag action value
  | .readRecord tag index page => readRecordCommand tag index page
  | .stable tag => stableCommand tag
  | .wake tag => wakeCommand tag
  | .restart tag lines => restartCommand tag lines
  | .unknownCommand tag code => unknownCommand tag code
  | _ => id

/-- The acceptance of a management command, by whether it needs a LOCK_SETUP before it. -/
def acceptance (c : Instr) (tag code : Byte) : Part → Part :=
  if needsSetup c then acceptLock tag code (taking c) else accept tag code (taking c)

/-- A management command is its acceptance. -/
theorem exec_management {c : Instr} {tag code : Byte} (h : managementHeader c = some (tag, code)) (s : State) :
    exec c s = .next { s with part := acceptance c tag code s.part } := by
  cases c <;> cases h <;> rfl

theorem disarm_of_idle {p : Part} (h : p.tables.armed = false) : disarm p = p := by
  rw [disarm, ← h]

theorem tableAt_disarm (p : Part) (t : TableId) : tableAt (disarm p).tables t = tableAt p.tables t := by
  cases t <;> rfl

/-- The three outcomes of an acceptance: the sequence lets a command through where it is ARMED just if the
command needs it so, and is IDLE afterwards (R172). -/
theorem acceptance_cases (c : Instr) (tag code : Byte) (p : Part) :
    (canAccept tag p = false ∧ acceptance c tag code p = p)
      ∨ (canAccept tag p = true ∧ needsSetup c = p.tables.armed
          ∧ acceptance c tag code p = taking c (disarm p))
      ∨ (canAccept tag p = true ∧ needsSetup c ≠ p.tables.armed
          ∧ acceptance c tag code p = refuseSequence tag code (disarm p)) := by
  unfold acceptance
  cases needsSetup c with
  | true =>
    rcases acceptLock_cases tag code (taking c) p with h | ⟨heard, armed, e⟩ | ⟨heard, idle, e⟩
    · exact .inl h
    · exact .inr (.inl ⟨heard, armed.symm, e⟩)
    · exact .inr (.inr ⟨heard, by simp [idle], by rwa [disarm_of_idle idle]⟩)
  | false =>
    rcases accept_cases tag code (taking c) p with h | ⟨heard, idle, e⟩ | ⟨heard, armed, e⟩
    · exact .inl h
    · exact .inr (.inl ⟨heard, idle.symm, by rwa [disarm_of_idle idle]⟩)
    · exact .inr (.inr ⟨heard, by simp [armed], e⟩)

section
variable {c : Instr} {tag code : Byte} {s : State} (h : managementHeader c = some (tag, code))
include h

theorem exec_taken (takes : Takes tag s.part) (free : needsSetup c = false) :
    exec c s = .next { s with part := taking c s.part } := by
  rw [exec_management h, acceptance, free]
  exact congrArg (fun p => Host.Outcome.next { s with part := p }) (accept_of_takes takes code _)

theorem exec_lockTaken (takes : TakesLock tag s.part) (needed : needsSetup c = true) :
    exec c s = .next { s with part := taking c (disarm s.part) } := by
  rw [exec_management h, acceptance, needed]
  exact congrArg (fun p => Host.Outcome.next { s with part := p }) (acceptLock_of_takesLock takes code _)

end

/-- Settles O53: of the three outcomes of an acceptance, the one that the line, the tag and the sequence leave. -/
theorem commandsOutOfSequenceAreRefused : Obligations.CommandsOutOfSequenceAreRefused := by
  intro c s tag code h
  rw [exec_management h]
  rcases acceptance_cases c tag code s.part with ⟨unheard, e⟩ | ⟨heard, sequence, e⟩ | ⟨heard, -, e⟩ <;> rw [e]
  · refine ⟨fun _ => rfl, fun line nonzero => ?_⟩
    exact absurd ((canAccept_iff tag s.part).mpr ⟨line, nonzero⟩) (by simp [unheard])
  · obtain ⟨line, nonzero⟩ := (canAccept_iff tag s.part).mp heard
    exact ⟨fun out => absurd out (not_or.mpr ⟨not_not_intro line, nonzero⟩), fun _ _ other => absurd sequence other⟩
  · obtain ⟨line, nonzero⟩ := (canAccept_iff tag s.part).mp heard
    exact ⟨fun out => absurd out (not_or.mpr ⟨not_not_intro line, nonzero⟩), fun _ _ _ => rfl⟩

end Sys2Proof.Machine
end

section
/-! ## The words of a locked table (R174): O54

The operations of the blocks keep the words of a locked table by `UnitFrame`. Of the management commands all but
ENVELOPE_DATA keep the words of every table. -/

namespace Sys2Proof.Machine

set_option Elab.async false

/-- From `p` to `q` the words of every table that is not UNLOCKED in `p` stand. The relation is not transitive, since
an UNLOCK lets a later write through; it extends by updates that leave the tables. -/
def LockedStand (p q : Part) : Prop :=
  ∀ t, (tableAt p.tables t).lock ≠ .unlocked → (tableAt q.tables t).words = (tableAt p.tables t).words

/-- From `p` to `q` the words of every table stand. -/
def WordsStand (p q : Part) : Prop := ∀ t, (tableAt q.tables t).words = (tableAt p.tables t).words

namespace LockedStand

variable {p q r : Part}

theorem of_eq (h : q.tables = p.tables := by rfl) : LockedStand p q := fun t _ => by rw [h]

theorem refl (p : Part) : LockedStand p p := .of_eq

theorem before (h : LockedStand q r) (e : q.tables = p.tables := by rfl) : LockedStand p r := by
  unfold LockedStand
  rw [← e]
  exact h

theorem after (h : LockedStand p q) (e : r.tables = q.tables := by rfl) : LockedStand p r := by
  unfold LockedStand
  rw [e]
  exact h

/-- Through either branch of a test. -/
theorem ite {c : Prop} [Decidable c] (hq : LockedStand p q) (hr : LockedStand p r) :
    LockedStand p (if c then q else r) := by
  split
  · exact hq
  · exact hr

end LockedStand

namespace WordsStand

variable {p q r : Part}

theorem refl (p : Part) : WordsStand p p := fun _ => rfl

theorem trans (a : WordsStand p q) (b : WordsStand q r) : WordsStand p r := fun t => (b t).trans (a t)

theorem lockedStand (h : WordsStand p q) : LockedStand p q := fun t _ => h t

end WordsStand

theorem UnitFrame.lockedStand {p q : Part} (f : UnitFrame p q) : LockedStand p q := f.words

theorem respond_wordsStand (tag code : Byte) (x : Result) (ws : List Word) (p : Part) :
    WordsStand p (respond tag code x ws p) := fun t => by rw [respond_tables]

/-! ### The management commands (chapter 10) -/

theorem withLock_wordsStand (t : TableId) (x : LockState) (p : Part) : WordsStand p (withLock t x p) := fun u => by
  by_cases e : t = u
  · subst e
    simp [withLock]
  · exact congrArg Table.words (tableAt_putTable_ne e p.tables _)

theorem lockTable_wordsStand (t : TableId) (p : Part) : WordsStand p (lockTable t p).1 := by
  unfold lockTable
  split
  · exact withLock_wordsStand t _ p
  · exact withLock_wordsStand t _ p
  · exact .refl p

theorem unlockTable_wordsStand (t : TableId) (p : Part) : WordsStand p (unlockTable t p).1 := by
  unfold unlockTable
  split
  · exact .refl p
  · split
    · exact .refl p
    · exact withLock_wordsStand t _ p
  · split
    · exact .refl p
    · split
      · exact .refl p
      · exact withLock_wordsStand t _ p

theorem lockDownTable_wordsStand (t : TableId) (p : Part) : WordsStand p (lockDownTable t p).1 :=
  withLock_wordsStand t _ p

theorem lockCommand_wordsStand {act : TableId → Part → Part × Result}
    (h : ∀ t p, WordsStand p (act t p).1) (tag code : Byte) (table : Word) (p : Part) :
    WordsStand p (lockCommand act tag code table p) := by
  unfold lockCommand
  split
  · exact respond_wordsStand _ _ _ _ p
  · exact (h _ p).trans (respond_wordsStand _ _ _ _ _)

theorem writeStage_wordsStand (tag : Byte) (offset count : Nat) (ws : List Word) (p : Part) :
    WordsStand p (writeStage tag offset count ws p) := by
  have written : WordsStand p { p with tables := { p.tables with
      front := overwrite p.tables.front offset (padTo count ws) } } := fun t => by cases t <;> rfl
  unfold writeStage
  split
  · exact respond_wordsStand _ _ _ _ p
  all_goals
    split
    · exact respond_wordsStand _ _ _ _ p
    · exact written.trans (respond_wordsStand _ _ _ _ _)

theorem stageTransfer_wordsStand (x : Transfer) (p : Part) : WordsStand p (stageTransfer x p) := by
  unfold stageTransfer
  split
  · exact fun t => by cases t <;> rfl
  · exact fun t => by cases t <;> rfl
  · exact respond_wordsStand _ _ _ _ p

theorem transfer_wordsStand (tag : Byte) (table index : Word) (p : Part) :
    WordsStand p (transfer tag table index p) := by
  unfold transfer
  split
  · exact respond_wordsStand _ _ _ _ p
  · split
    · exact respond_wordsStand _ _ _ _ p
    · exact stageTransfer_wordsStand _ p

theorem envelopePointer_wordsStand (tag : Byte) (breakpoint : Word) (p : Part) :
    WordsStand p (envelopePointer tag breakpoint p) := by
  have moved : ∀ k, WordsStand p (movePointer k .s [] p) := fun _ t => by cases t <;> rfl
  unfold envelopePointer
  split
  · exact (moved _).trans (respond_wordsStand _ _ _ _ _)
  · exact respond_wordsStand _ _ _ _ p

theorem lockSetupCommand_wordsStand (tag : Byte) (p : Part) : WordsStand p (lockSetupCommand tag p) := by
  have armed : WordsStand p { p with tables := { p.tables with armed := true } } := fun t => by cases t <;> rfl
  exact armed.trans (respond_wordsStand _ _ _ _ _)

/-- A RESTART locks tables and changes no word of them (R182). -/
theorem restartCommand_wordsStand (tag : Byte) (lines : Lines) (p : Part) :
    WordsStand p (restartCommand tag lines p) := by
  have restarted : WordsStand p (restart (withLines lines p)) := fun t => by cases t <;> rfl
  unfold restartCommand
  split
  · exact restarted.trans (respond_wordsStand _ _ _ _ _)
  · exact restarted.trans (respond_wordsStand _ _ _ _ _)
  all_goals exact respond_wordsStand _ _ _ _ p

section
variable (tag : Byte) (p : Part)

@[simp] theorem statusCommand_tables (page : Word) : (statusCommand tag page p).tables = p.tables := by
  unfold statusCommand
  split <;> simp

@[simp] theorem clearStatusCommand_tables : (clearStatusCommand tag p).tables = p.tables := by
  simp [clearStatusCommand]

@[simp] theorem readEntryCommand_tables (table index offset : Word) :
    (readEntryCommand tag table index offset p).tables = p.tables := by
  unfold readEntryCommand
  split
  · simp
  · split <;> simp

@[simp] theorem setRestrictionCommand_tables (action value : Word) :
    (setRestrictionCommand tag action value p).tables = p.tables := by
  unfold setRestrictionCommand
  split
  · simp
  · split <;> simp

@[simp] theorem readRecordCommand_tables (index page : Word) :
    (readRecordCommand tag index page p).tables = p.tables := by
  unfold readRecordCommand
  split
  · dsimp only
    split <;> simp
  · simp

@[simp] theorem stableCommand_tables : (stableCommand tag p).tables = p.tables := by
  unfold stableCommand
  split
  · split <;> simp [enterStabled]
  · simp

@[simp] theorem unknownCommand_tables (code : Byte) : (unknownCommand tag code p).tables = p.tables :=
  respond_tables ..

theorem wakeCommand_lockedStand : LockedStand p (wakeCommand tag p) := by
  unfold wakeCommand
  split
  · exact .after (.before (leaveStabledIfDue_unitFrame _).lockedStand) (respond_tables ..)
  · exact .of_eq (respond_tables ..)

end

/-- A value that ENVELOPE_DATA takes writes the envelope alone (R179). -/
theorem tableAt_takeValue_ne {t : TableId} (h : .envelope ≠ t) (v : Word) (p : Part) :
    tableAt (takeValue v p).tables t = tableAt p.tables t := by
  have moved : ∀ k field held q, tableAt (movePointer k field held q).tables t = tableAt q.tables t :=
    fun _ _ _ _ => by cases t <;> rfl
  cases hf : p.tables.field with
  | s => rw [takeValue_s v hf, moved]
  | t => rw [takeValue_t v hf, moved]
  | b =>
    rw [takeValue_b v hf, moved]
    exact tableAt_commit_ne h _ _ p

theorem tableAt_takeValues_ne {t : TableId} (h : .envelope ≠ t) (vs : List Word) (p : Part) :
    tableAt (takeValues vs p).tables t = tableAt p.tables t := by
  unfold takeValues
  induction vs generalizing p with
  | nil => rfl
  | cons v vs ih => exact (ih _).trans (tableAt_takeValue_ne h v p)

/-- ENVELOPE_DATA takes its values only with the envelope UNLOCKED (R174). -/
theorem envelopeData_lockedStand (tag : Byte) (count : Nat) (values : List Word) (p : Part) :
    LockedStand p (envelopeData tag count values p) := by
  unfold envelopeData
  split
  · exact .of_eq (respond_tables ..)
  · next passed =>
    have taken : LockedStand p (takeValues (padTo count values) p) := fun t locked => by
      have other : .envelope ≠ t := fun e => locked (e ▸ writeGate_none_unlocked passed)
      rw [tableAt_takeValues_ne other]
    dsimp only
    split
    · exact .of_eq (respond_tables ..)
    · exact taken.after (respond_tables ..)

/-- No management command that is taken changes a locked table. -/
theorem taking_lockedStand (c : Instr) (p : Part) : LockedStand p (taking c p) := by
  cases c with
  | status tag page => exact .of_eq (statusCommand_tables tag p page)
  | clearStatus tag => exact .of_eq (clearStatusCommand_tables tag p)
  | writeStage tag offset count words => exact (writeStage_wordsStand tag _ _ words p).lockedStand
  | transfer tag table index => exact (transfer_wordsStand tag table index p).lockedStand
  | readEntry tag table index offset => exact .of_eq (readEntryCommand_tables tag p table index offset)
  | envelopePointer tag breakpoint => exact (envelopePointer_wordsStand tag breakpoint p).lockedStand
  | envelopeData tag count values => exact envelopeData_lockedStand tag _ values p
  | lockSetup tag => exact (lockSetupCommand_wordsStand tag p).lockedStand
  | lock tag table => exact (lockCommand_wordsStand lockTable_wordsStand tag 9 table p).lockedStand
  | unlock tag table => exact (lockCommand_wordsStand unlockTable_wordsStand tag 10 table p).lockedStand
  | lockDown tag table => exact (lockCommand_wordsStand lockDownTable_wordsStand tag 11 table p).lockedStand
  | setRestriction tag action value => exact .of_eq (setRestrictionCommand_tables tag p action value)
  | readRecord tag index page => exact .of_eq (readRecordCommand_tables tag p index page)
  | stable tag => exact .of_eq (stableCommand_tables tag p)
  | wake tag => exact wakeCommand_lockedStand tag p
  | restart tag lines => exact (restartCommand_wordsStand tag lines p).lockedStand
  | unknownCommand tag code => exact .of_eq (unknownCommand_tables tag p code)
  | _ => exact .refl p

theorem acceptance_lockedStand (c : Instr) (tag code : Byte) (p : Part) :
    LockedStand p (acceptance c tag code p) := by
  have disarmed : ∀ q, LockedStand (disarm p) q → LockedStand p q := fun q => by
    simp only [LockedStand, tableAt_disarm, imp_self]
  rcases acceptance_cases c tag code p with ⟨-, e⟩ | ⟨-, -, e⟩ | ⟨-, -, e⟩ <;> rw [e]
  · exact .refl p
  · exact disarmed _ (taking_lockedStand c (disarm p))
  · exact disarmed _ (.of_eq (by simp [refuseSequence]))

/-- The command that the words of a management cell spell is accepted as that command (section 11.4). -/
theorem acceptCommand_eq (ws : List Word) (p : Part) :
    acceptCommand (lowByte (wordAt ws 1)) (lowByte (wordAt ws 0)) ws p =
      acceptance (commandOf p.lines ws) (lowByte (wordAt ws 1)) (lowByte (wordAt ws 0)) p := by
  unfold acceptCommand commandOf
  dsimp only
  generalize lowByte (wordAt ws 0) = code
  have named : code = BitVec.ofNat 8 code.toNat := by simp
  generalize code.toNat = n at named ⊢
  match n with
  | 0 | 1 | 2 | 3 | 4 | 5 | 6 | 7 | 8 | 9 | 10 | 11 | 12 | 13 | 14 | 15 | 16 =>
    subst named
    rfl
  | _ + 17 => rfl

theorem acceptCommand_lockedStand (ws : List Word) (p : Part) :
    LockedStand p (acceptCommand (lowByte (wordAt ws 1)) (lowByte (wordAt ws 0)) ws p) := by
  rw [acceptCommand_eq]
  exact acceptance_lockedStand _ _ _ p

/-! ### Cells and openings (chapter 2) -/

/-- A store is of a function whose block leaves the tables, or can be a command (R24, R183). -/
theorem deliver_lockedStand (index : Fin 82) (fn : Fn) (kind : Kind) (r : SlotRecord) (p : Part) :
    LockedStand p (deliver index fn kind r p) := by
  by_cases h : fn = .mgmtIn
  · subst h
    exact .ite (acceptCommand_lockedStand r.payload p) (.refl p)
  · exact (deliver_unitFrame index h kind r p).lockedStand

theorem storeCell_lockedStand (g : Governing) (lane : Lane) (c : Cell) (p : Part) :
    LockedStand p (storeCell g lane c p) :=
  .before (deliver_lockedStand g.index g.entry.fn c.kind _ _)

theorem observeCell_lockedStand (g : Governing) (lane : Lane) (c : Cell) (p : Part) :
    LockedStand p (observeCell g lane c p) := by
  have stored := storeCell_lockedStand g lane c p
  unfold observeCell pairCell
  split
  · exact .refl p
  · dsimp only
    split
    · exact .ite .of_eq (.before (storeCell_lockedStand g lane c _))
    · exact .ite (.refl p) .of_eq
  · exact .ite stored (.refl p)
  · exact .ite stored (.refl p)

theorem disposeCell_lockedStand (g : Governing) (lane : Lane) (words : List Word) (c : Cell) (valid : Bool)
    (p : Part) : LockedStand p (disposeCell g lane words c valid p).1 := by
  have outcome : ∀ o, LockedStand p (setOutcome g lane o p) := fun _ => .of_eq
  have observed : LockedStand p (observeCell g lane c (setOutcome g lane .valid p)) :=
    .before (observeCell_lockedStand g lane c _)
  cases h : appliedDisposition p.cab.state g.entry with
  | pass => simpa only [disposeCell_pass _ _ _ _ h] using outcome _
  | observe =>
    rw [disposeCell_observe _ _ _ _ h]
    exact .ite observed (outcome _)
  | take =>
    cases valid with
    | false => simpa only [disposeCell_replaced _ _ _ (.inl h)] using outcome _
    | true =>
      cases ha : addressed c p with
      | false => simpa only [disposeCell_take_other _ _ _ h ha] using outcome _
      | true => simpa only [disposeCell_take_addressed _ _ _ h ha] using observed
  | rewrite =>
    cases valid with
    | false => simpa only [disposeCell_replaced _ _ _ (.inr h)] using outcome _
    | true => simpa only [disposeCell_rewrite _ _ _ h] using observed
  | own =>
    rw [disposeCell_own _ _ _ _ h]
    exact .of_eq

@[simp] theorem closeSlot_tables (p : Part) : (closeSlot p).tables = p.tables := by
  rw [closeSlot_eq]

@[simp] theorem openSlot_tables (slot : Six) (p : Part) : (openSlot slot p).tables = p.tables :=
  (openSlot_sendingFrame slot p).tables

theorem slotTimer_tables (p : Part) : (slotTimer p).tables = p.tables := by
  unfold slotTimer
  split <;> simp

/-! ### The line interface (chapter 1) -/

@[simp] theorem endCycle_tables (p : Part) : (endCycle p).tables = p.tables := by
  simp [endCycle, settleLanes]

theorem decideLanes_lockedStand (down up : Bool) (p : Part) : LockedStand p (decideLanes down up p) :=
  .before (presentLoss_unitFrame _ _).lockedStand

theorem beaconStart_lockedStand (lane : Lane) (cycle : Six) (order : List Work) (p : Part) :
    LockedStand p (beaconStart lane cycle order p) := by
  have begun : (takeBeacon lane cycle (setFlagIf (slips cycle p) .cycleSlip (endCycle p))).tables = p.tables := by
    simp [takeBeacon]
  exact .before (presentCycle_unitFrame _ order _).lockedStand begun

theorem substituteStart_lockedStand (order : List Work) (p : Part) :
    LockedStand p (substituteStart order p) :=
  .before (presentCycle_unitFrame _ order _).lockedStand (endCycle_tables p)

theorem beaconArrival_lockedStand (lane : Lane) (cycle : Six) (order : List Work) (p : Part) :
    LockedStand p (beaconArrival lane cycle order p) := by
  have started := beaconStart_lockedStand lane cycle order p
  exact .ite (.ite (.ite .of_eq started) (.ite .of_eq (.ite .of_eq started))) started

theorem handOver_lockedStand (lane : Lane) (words : List Word) (c : Cell) (valid : Bool) (p : Part) :
    LockedStand p (handOver lane words c valid p).1 := by
  unfold handOver
  split
  · exact disposeCell_lockedStand _ lane words c valid p
  · exact .refl p

theorem driveOut_lockedStand (lane : Lane) {p : Part} {x : Part × Option (List Word)} (h : LockedStand p x.1) :
    LockedStand p (driveOut lane x) := by
  unfold driveOut
  split
  · exact h.after (drive_tables ..)
  · exact h

theorem cellArrivalIn_lockedStand (lane : Lane) (words : List Word) (c : Cell) (intact : Bool) (p : Part) :
    LockedStand p (cellArrivalIn lane words c intact p) := by
  have counted : ∀ good : Bool, (if good then p else countError lane p).tables = p.tables :=
    fun good => by cases good <;> rfl
  unfold cellArrivalIn slotArrival
  split
  · exact .ite (.of_eq (drive_tables ..))
      (driveOut_lockedStand lane (.before (handOver_lockedStand lane words c _ _) (counted _)))
  · exact .of_eq ((drive_tables ..).trans (counted _))

theorem arrive_lockedStand (lane : Lane) (words : List Word) (order : List Work) (p : Part) :
    LockedStand p (arrive lane words order p) := by
  unfold arrive
  split
  · exact .ite ((beaconArrival_lockedStand lane _ order p).after (drive_tables ..))
      (cellArrivalIn_lockedStand lane words _ _ p)
  · exact cellArrivalIn_lockedStand lane words _ _ p

/-! ### Every command -/

theorem onPart_lockedStand {f : Part → Part} {s t : State} (h : LockedStand s.part (f s.part))
    (e : (Host.Outcome.next (s.onPart f) : Host.Outcome State Fault Refusal) = .next t) :
    LockedStand s.part t.part := by
  cases e
  exact h

/-- An event inside a block, by the frame of its operation. -/
theorem when_lockedStand {c : Part → Bool} {f : Part → Part} (h : ∀ p, UnitFrame p (f p)) {s t : State}
    (e : when c f s = .next t) : LockedStand s.part t.part :=
  onPart_lockedStand (UnitFrame.ite (h s.part) (.refl s.part)).lockedStand e

theorem exec_management_lockedStand {c : Instr} {header : Byte × Byte} (h : managementHeader c = some header)
    {s t : State} (e : exec c s = .next t) : LockedStand s.part t.part := by
  rw [exec_management h] at e
  cases e
  exact acceptance_lockedStand c header.1 header.2 s.part

theorem exec_lockedStand {c : Instr} {s t : State} (hreset : ∀ lines, c ≠ .powerOnReset lines)
    (e : exec c s = .next t) : LockedStand s.part t.part := by
  cases c with
  | powerOnReset lines => exact absurd rfl (hreset lines)
  | cellArrival lane words lines order =>
    exact onPart_lockedStand (.ite (.before (arrive_lockedStand lane words order _)) (.refl _)) e
  | substituteCycleStart lines order =>
    exact onPart_lockedStand (.ite (.before (substituteStart_lockedStand order _)) (.refl _)) e
  | slotOpening => exact onPart_lockedStand (.of_eq (slotTimer_tables _)) e
  | laneDown => exact onPart_lockedStand (decideLanes_lockedStand _ _ _) e
  | laneUp => exact onPart_lockedStand (decideLanes_lockedStand _ _ _) e
  | otherCabTimeout => exact when_lockedStand (takeView_unitFrame _) e
  | activationAttempt => exact when_lockedStand attempt_unitFrame e
  | settleComplete => exact when_lockedStand (fun _ => .update) e
  | brakeTimeout => exact when_lockedStand (activationFails_unitFrame _ _ _) e
  | entryToActive => exact when_lockedStand enterActive_unitFrame e
  | pendingExitTaken => exact when_lockedStand takeExit_unitFrame e
  | scrubPassBegin => exact when_lockedStand (fun _ => .trans .update (scrubTable_unitFrame _ _)) e
  | stabledExit => exact when_lockedStand leaveStabled_unitFrame e
  | speedSourceStale => exact when_lockedStand speedGoesStale_unitFrame e
  | speedLockAcquired => exact when_lockedStand speedLocks_unitFrame e
  | selectionTimeout => exact when_lockedStand (select_unitFrame 0) e
  | requestTimeout pos => exact when_lockedStand (timeOut_unitFrame pos) e
  | doorStatusStale => exact when_lockedStand (setRow_unitFrame (r := .doors) (by decide) 0) e
  | phaseEnd ch => exact when_lockedStand (endChannelPhase_unitFrame ch) e
  | stepEnd ch => exact when_lockedStand (endChannelStep_unitFrame ch) e
  | hornMinReached => exact when_lockedStand (fun _ => .update) e
  | hornStuck => exact when_lockedStand cutHorn_unitFrame e
  | transferCompletion => exact when_lockedStand completeTransfer_unitFrame e
  | _ => exact exec_management_lockedStand rfl e

/-- Settles O54: by cases on the command, a management command through its acceptance. -/
theorem lockedTableIsNotChanged : Obligations.LockedTableIsNotChanged :=
  fun _ _ _ x hreset locked e => exec_lockedStand hreset e x locked

end Sys2Proof.Machine
end

section
/-! ## The staging buffer and the locks (R172 to R176): O45, O48 -/

namespace Sys2Proof.Machine

set_option Elab.async false

theorem cabLive_iff (p : Part) : cabLive p = true ↔ p.cab.state = .active ∨ p.cab.state = .hold := by
  cases h : p.cab.state <;> simp [cabLive, h]

/-! ### WRITE_STAGE and TRANSFER (R174, R176) -/

theorem stagedTable_none {table : Word} (h : tableOf table = none ∨ tableOf table = some .envelope) :
    stagedTable table = none := by
  rcases h with h | h <;> simp [stagedTable, h]

theorem stagedTable_some {table : Word} {t : TableId} (h : tableOf table = some t) (other : t ≠ .envelope) :
    stagedTable table = some t := by
  cases t <;> simp_all [stagedTable]

/-- WRITE_STAGE by the staging state, with its bounds as those that it must meet (R176). -/
theorem writeStage_eq (tag : Byte) (offset count : Nat) (words : List Word) (p : Part) :
    writeStage tag offset count words p =
      match p.tables.staging with
      | .pending _ _ => respond tag 3 .busy [] p
      | .free | .busy _ =>
        if 1 ≤ count ∧ count ≤ 5 ∧ offset + count ≤ 24 then
          respond tag 3 .ok [] { p with tables := { p.tables with
            front := overwrite p.tables.front offset (padTo count words) } }
        else respond tag 3 .range [] p := by
  have bounds : (count < 1 ∨ 5 < count ∨ 24 < offset + count)
      ↔ ¬ (1 ≤ count ∧ count ≤ 5 ∧ offset + count ≤ 24) := by omega
  cases h : p.tables.staging with
  | free => simp only [writeStage, h, bounds, ite_not]
  | busy back => simp only [writeStage, h, bounds, ite_not]
  | pending back front => simp only [writeStage, h]

/-- A junction has an open record just if one of the list names it (R111). -/
theorem openFor_isSome_iff {p : Part} {index : Nat} (h : index < 64) :
    (openFor p (BitVec.ofNat 6 index)).isSome = true
      ↔ ∃ pos r, openAt p pos = some r ∧ r.junction.toNat = index := by
  have named : ∀ j : Six, j = BitVec.ofNat 6 index ↔ j.toNat = index := fun j => by
    rw [← BitVec.toNat_inj, BitVec.toNat_ofNat, Nat.mod_eq_of_lt h]
  rw [Option.isSome_iff_ne_none]
  constructor
  · intro opened
    by_contra absent
    refine opened (openFor_absent fun pos r hr hj => absent ⟨pos, r, hr, (named _).mp hj⟩)
  · rintro ⟨pos, r, hr, hj⟩
    exact openFor_ne_none hr ((named _).mpr hj)

/-- The gates of a TRANSFER in their order, with the motion and the open record written out (R174). -/
theorem transferGate_eq (t : TableId) (index : Nat) (p : Part) :
    transferGate t index p =
      (if entryCount t ≤ index then some .range
      else if (tableAt p.tables t).lock ≠ .unlocked then some .locked
      else if t = .slot ∧ p.cab.state ≠ .inactive then some .unsafeState
      else if t ≠ .slot ∧ (p.cab.state = .active ∨ p.cab.state = .hold) ∧ p.traction.demand.v ≠ 0 then
        some .unsafeState
      else if t = .route ∧ ∃ pos r, openAt p pos = some r ∧ r.junction.toNat = index then some .inUse
      else if imageInRange t index (p.tables.front.take (entrySize t index)) = true then none
      else some .range) := by
  by_cases beyond : entryCount t ≤ index
  · rw [transferGate, if_pos beyond, if_pos beyond]
  · have inUse : (t = .route ∧ (openFor p (BitVec.ofNat 6 index)).isSome = true)
        ↔ (t = .route ∧ ∃ pos r, openAt p pos = some r ∧ r.junction.toNat = index) :=
      and_congr_right fun route => openFor_isSome_iff (by subst route; exact Nat.not_le.mp beyond)
    rw [transferGate, if_neg beyond, if_neg beyond, writeGate]
    simp only [cabLive_iff, inUse]
    split_ifs <;> rfl

/-- Settles O45: WRITE_STAGE by the staging state and its bounds, TRANSFER by its table and its gates. -/
theorem stagingTakesWordsAndTransfers : Obligations.StagingTakesWordsAndTransfers := by
  intro s tag takes
  refine ⟨fun offset count words => ?_, fun table index => ⟨fun unstaged => ?_, fun t named other =>
    ⟨transferGate_eq t index.toNat s.part, fun result gated => ?_, fun passed => ?_⟩⟩⟩
  · rw [exec_taken rfl takes rfl]
    exact congrArg (fun p => Host.Outcome.next { s with part := p }) (writeStage_eq ..)
  · rw [exec_taken rfl takes rfl]
    simp only [taking, transfer, stagedTable_none unstaged]
  · rw [exec_taken rfl takes rfl]
    simp only [taking, transfer, stagedTable_some named other, gated]
  · rw [exec_taken rfl takes rfl]
    simp only [taking, transfer, stagedTable_some named other, passed]
    rfl

/-! ### The locks (R172, R173) -/

theorem inMotion_iff (p : Part) : inMotion p = true ↔ (p.cab.state = .active ∨ p.cab.state = .hold)
    ∧ (p.traction.demand.v ≠ 0 ∨ p.traction.demand.d ≠ 0) := by
  simp [inMotion, cabLive_iff]

theorem withLock_of_lock {t : TableId} {x : LockState} {p : Part} (h : (tableAt p.tables t).lock = x) :
    withLock t x p = p := by
  subst h
  cases t <;> rfl

theorem disarm_depot (p : Part) : (disarm p).tables.depot = p.tables.depot := rfl

theorem inMotion_disarm (p : Part) : inMotion (disarm p) = inMotion p := rfl

/-- LOCK, the sequence IDLE again, by the lock (R173). -/
theorem lockTable_disarm (t : TableId) (p : Part) :
    lockTable t (disarm p) =
      if (tableAt p.tables t).lock = .lockedDown then (disarm p, .locked)
      else (withLock t .locked (disarm p), .ok) := by
  cases h : (tableAt p.tables t).lock <;> simp [lockTable, tableAt_disarm, h]

/-- UNLOCK, the sequence IDLE again, by the lock, DEPOT and the motion (R173). -/
theorem unlockTable_disarm (t : TableId) (p : Part) :
    unlockTable t (disarm p) =
      if (tableAt p.tables t).lock = .lockedDown ∧ p.tables.depot.value = false then (disarm p, .locked)
      else if (tableAt p.tables t).lock ≠ .unlocked ∧ (p.cab.state = .active ∨ p.cab.state = .hold)
          ∧ (p.traction.demand.v ≠ 0 ∨ p.traction.demand.d ≠ 0) then (disarm p, .unsafeState)
      else (withLock t .unlocked (disarm p), .ok) := by
  cases h : (tableAt p.tables t).lock with
  | unlocked =>
    have same : withLock t .unlocked (disarm p) = disarm p := withLock_of_lock (by rw [tableAt_disarm, h])
    simp [unlockTable, tableAt_disarm, h, same]
  | locked => simp [unlockTable, tableAt_disarm, h, inMotion_disarm, inMotion_iff]
  | lockedDown => simp [unlockTable, tableAt_disarm, h, inMotion_disarm, inMotion_iff, disarm_depot]

theorem lockCommand_unnamed (act : TableId → Part → Part × Result) (tag code : Byte) {table : Word}
    (h : tableOf table = none) (p : Part) : lockCommand act tag code table p = respond tag code .range [] p := by
  simp only [lockCommand, h]

theorem lockCommand_named (act : TableId → Part → Part × Result) (tag code : Byte) {table : Word} {t : TableId}
    (h : tableOf table = some t) (p : Part) :
    lockCommand act tag code table p = respond tag code (act t p).2 [] (act t p).1 := by
  simp only [lockCommand, h]

/-- Settles O48: the setup, and each lock command in its turn. -/
theorem locksFollowTheirTable : Obligations.LocksFollowTheirTable := by
  intro s tag
  refine ⟨fun takes => exec_taken rfl takes rfl, fun takes table => ⟨fun unnamed => ⟨?_, ?_, ?_⟩,
    fun t named => ⟨?_, ?_, ?_⟩⟩⟩
  · rw [exec_lockTaken rfl takes rfl, taking, lockCommand_unnamed _ _ _ unnamed]
  · rw [exec_lockTaken rfl takes rfl, taking, lockCommand_unnamed _ _ _ unnamed]
  · rw [exec_lockTaken rfl takes rfl, taking, lockCommand_unnamed _ _ _ unnamed]
  · rw [exec_lockTaken rfl takes rfl, taking, lockCommand_named _ _ _ named]
    rfl
  · rw [exec_lockTaken rfl takes rfl, taking, lockCommand_named _ _ _ named, lockTable_disarm]
    split_ifs <;> rfl
  · rw [exec_lockTaken rfl takes rfl, taking, lockCommand_named _ _ _ named, unlockTable_disarm]
    split_ifs <;> rfl

end Sys2Proof.Machine
end

section
/-! ## Cleared flags, unknown codes and the MGMT_IN store (R183, R186, section 11.4): O52 -/

namespace Sys2Proof.Machine

set_option Elab.async false

/-- The tag and the code of a command are those that its words spell (section 11.4). -/
theorem managementHeader_commandOf (lines : Lines) (ws : List Word) :
    managementHeader (commandOf lines ws) =
      some (lowByte (wordAt ws 1), lowByte (wordAt ws 0)) := by
  unfold commandOf
  dsimp only
  split
  case h_17 => rfl
  all_goals
    rename_i named
    exact congrArg (fun code => some (lowByte (wordAt ws 1), code)) (BitVec.eq_of_toNat_eq named).symm

/-- The command that words spell, given apart from any store, is the acceptance of those words (R183). -/
theorem exec_commandOf (ws : List Word) (s : State) :
    exec (commandOf s.part.lines ws) s = .next { s with
      part := acceptCommand (lowByte (wordAt ws 1)) (lowByte (wordAt ws 0)) ws s.part } := by
  rw [exec_management (managementHeader_commandOf _ _), acceptCommand_eq]

/-- A management cell of two words or more addressed to the part is the acceptance of its words (R183). -/
theorem mgmtStore_addressed {kind : Kind} {r : SlotRecord} {p : Part} (management : kind = .mgmt)
    (long : 2 ≤ r.length) (addressed : (wordAt r.payload 0).extractLsb' 10 6 = p.node) :
    mgmtStore kind r p =
      acceptCommand (lowByte (wordAt r.payload 1)) (lowByte (wordAt r.payload 0)) r.payload p :=
  if_pos ⟨management, long, addressed⟩

/-- A cell of another kind, a shorter one, and one for another node are no command (R183, section 11.4). -/
theorem mgmtStore_other {kind : Kind} {r : SlotRecord} {p : Part}
    (other : kind ≠ .mgmt ∨ r.length < 2 ∨ (wordAt r.payload 0).extractLsb' 10 6 ≠ p.node) :
    mgmtStore kind r p = p := by
  refine if_neg ?_
  rintro ⟨management, long, addressed⟩
  rcases other with unmanaged | short | elsewhere
  · exact unmanaged management
  · exact absurd long (Nat.not_le.mpr short)
  · exact elsewhere addressed

/-- Settles O52: the two commands by the acceptance, the store by the words that it spells. -/
theorem flagsAreClearedAndUnknownCodesAnswered : Obligations.FlagsAreClearedAndUnknownCodesAnswered := by
  refine ⟨fun s tag takes => ⟨⟨clearFlags s.part, exec_taken rfl takes rfl, rfl, hasFlag_zero⟩,
    fun code _ => exec_taken rfl takes rfl⟩, fun i kind x s => ⟨fun management long addressed => ?_, ?_⟩⟩
  · rw [exec_commandOf, ← mgmtStore_addressed management long addressed]
    rfl
  · exact mgmtStore_other

end Sys2Proof.Machine
end

section
/-! ## Every command completes, with the node number and RESET_N as they were (R193): O2

The operations of the blocks keep both by `UnitFrame`. What is left are the management commands, of which some
change locks, locked words or the RESTRICT row, the cells in an open slot, and the line interface. -/

namespace Sys2Proof.Machine

set_option Elab.async false

/-- From `p` to `q` the node number and the level of RESET_N stand. -/
structure NodeFrame (p q : Part) : Prop where
  node : q.node = p.node
  resetN : q.resetN = p.resetN

namespace NodeFrame

/-- An update of other state. -/
theorem update {p q : Part} (node : q.node = p.node := by rfl) (resetN : q.resetN = p.resetN := by rfl) :
    NodeFrame p q := ⟨node, resetN⟩

theorem refl (p : Part) : NodeFrame p p := .update

theorem trans {p q r : Part} (a : NodeFrame p q) (b : NodeFrame q r) : NodeFrame p r :=
  ⟨b.node.trans a.node, b.resetN.trans a.resetN⟩

/-- Through either branch of a test. -/
theorem ite {p a b : Part} {c : Prop} [Decidable c] (ha : NodeFrame p a) (hb : NodeFrame p b) :
    NodeFrame p (if c then a else b) := by
  split
  · exact ha
  · exact hb

end NodeFrame

theorem UnitFrame.nodeFrame {p q : Part} (f : UnitFrame p q) : NodeFrame p q := ⟨f.node, f.resetN⟩

theorem respond_nodeFrame (tag code : Byte) (x : Result) (ws : List Word) (p : Part) :
    NodeFrame p (respond tag code x ws p) := (respond_unitFrame tag code x ws p).nodeFrame

/-- An operation that ends with a response to its command (R184). -/
theorem NodeFrame.answered {p q : Part} (f : NodeFrame p q) (tag code : Byte) (x : Result) (ws : List Word) :
    NodeFrame p (respond tag code x ws q) := f.trans (respond_nodeFrame tag code x ws q)

theorem drive_nodeFrame (l : Lane) (cell : List Word) (p : Part) : NodeFrame p (drive l cell p) :=
  ⟨drive_node .., drive_resetN ..⟩

/-! ### The management commands (chapter 10) -/

section
variable (tag : Byte) (p : Part)

theorem statusCommand_nodeFrame (page : Word) : NodeFrame p (statusCommand tag page p) := by
  unfold statusCommand
  split
  · exact respond_nodeFrame _ _ _ _ p
  · exact respond_nodeFrame _ _ _ _ p

theorem clearStatusCommand_nodeFrame : NodeFrame p (clearStatusCommand tag p) := .answered .update _ _ _ _

theorem writeStage_nodeFrame (offset count : Nat) (ws : List Word) :
    NodeFrame p (writeStage tag offset count ws p) := by
  unfold writeStage
  split
  · exact respond_nodeFrame _ _ _ _ p
  all_goals exact .ite (respond_nodeFrame _ _ _ _ p) (.answered .update _ _ _ _)

theorem stageTransfer_nodeFrame (x : Transfer) : NodeFrame p (stageTransfer x p) := by
  unfold stageTransfer
  split
  · exact .update
  · exact .update
  · exact respond_nodeFrame _ _ _ _ p

theorem transfer_nodeFrame (table index : Word) : NodeFrame p (transfer tag table index p) := by
  unfold transfer
  split
  · exact respond_nodeFrame _ _ _ _ p
  · split
    · exact respond_nodeFrame _ _ _ _ p
    · exact stageTransfer_nodeFrame p _

theorem readEntryCommand_nodeFrame (table index offset : Word) :
    NodeFrame p (readEntryCommand tag table index offset p) := by
  unfold readEntryCommand
  split
  · exact respond_nodeFrame _ _ _ _ p
  · exact .ite (respond_nodeFrame _ _ _ _ p) (respond_nodeFrame _ _ _ _ p)

theorem envelopePointer_nodeFrame (breakpoint : Word) : NodeFrame p (envelopePointer tag breakpoint p) := by
  unfold envelopePointer
  split
  · exact .answered .update _ _ _ _
  · exact respond_nodeFrame _ _ _ _ p

/-- A committed change, whatever the table's lock. -/
theorem commit_nodeFrame (t : TableId) (i : Nat) (image : List Word) : NodeFrame p (commit t i image p) :=
  .trans .update ((presentChange_unitFrame t i _).trans (tableChanged_unitFrame t _)).nodeFrame

theorem takeValue_nodeFrame (v : Word) : NodeFrame p (takeValue v p) := by
  cases h : p.tables.field with
  | s => exact takeValue_s v h ▸ .update
  | t => exact takeValue_t v h ▸ .update
  | b => exact takeValue_b v h ▸ (commit_nodeFrame p _ _ _).trans .update

theorem takeValues_nodeFrame (vs : List Word) : NodeFrame p (takeValues vs p) := by
  unfold takeValues
  induction vs generalizing p with
  | nil => exact .refl p
  | cons v vs ih => exact (takeValue_nodeFrame p v).trans (ih _)

theorem envelopeData_nodeFrame (count : Nat) (values : List Word) :
    NodeFrame p (envelopeData tag count values p) := by
  unfold envelopeData
  split
  · exact respond_nodeFrame _ _ _ _ p
  · exact .ite (respond_nodeFrame _ _ _ _ p) (.answered (takeValues_nodeFrame p _) _ _ _ _)

theorem lockTable_nodeFrame (t : TableId) : NodeFrame p (lockTable t p).1 := by
  unfold lockTable
  split
  · exact .update
  · exact .update
  · exact .refl p

theorem unlockTable_nodeFrame (t : TableId) : NodeFrame p (unlockTable t p).1 := by
  unfold unlockTable
  split
  · exact .refl p
  · split
    · exact .refl p
    · exact .update
  · split
    · exact .refl p
    · split
      · exact .refl p
      · exact .update

theorem lockCommand_nodeFrame {act : TableId → Part → Part × Result} (h : ∀ t, NodeFrame p (act t p).1)
    (code : Byte) (table : Word) : NodeFrame p (lockCommand act tag code table p) := by
  unfold lockCommand
  split
  · exact respond_nodeFrame _ _ _ _ p
  · exact (h _).answered _ _ _ _

theorem lockSetupCommand_nodeFrame : NodeFrame p (lockSetupCommand tag p) := .answered .update _ _ _ _

theorem setRestrictionCommand_nodeFrame (action value : Word) :
    NodeFrame p (setRestrictionCommand tag action value p) :=
  .ite (.answered .update _ _ _ _) (.ite (.answered .update _ _ _ _) (respond_nodeFrame _ _ _ _ p))

theorem readRecordCommand_nodeFrame (index page : Word) : NodeFrame p (readRecordCommand tag index page p) := by
  unfold readRecordCommand
  split
  · dsimp only
    split
    · exact .answered .update _ _ _ _
    · exact respond_nodeFrame _ _ _ _ p
  · exact respond_nodeFrame _ _ _ _ p

theorem stableCommand_nodeFrame : NodeFrame p (stableCommand tag p) :=
  .ite (.ite (respond_nodeFrame _ _ _ _ p) (.answered .update _ _ _ _)) (respond_nodeFrame _ _ _ _ p)

theorem wakeCommand_nodeFrame : NodeFrame p (wakeCommand tag p) :=
  .ite (.answered (.trans .update (leaveStabledIfDue_unitFrame _).nodeFrame) _ _ _ _)
    (respond_nodeFrame _ _ _ _ p)

/-- A RESTART keeps both where it is taken: it samples END anew, and not NODE (R67, R189). -/
theorem restartCommand_nodeFrame (lines : Lines) : NodeFrame p (restartCommand tag lines p) := by
  have restarted : NodeFrame p (restart (withLines lines p)) := .update
  unfold restartCommand
  split
  · exact restarted.answered _ _ _ _
  · exact restarted.answered _ _ _ _
  all_goals exact respond_nodeFrame _ _ _ _ p

end

/-- No management command that is taken changes the node number or the level of RESET_N. -/
theorem taking_nodeFrame (c : Instr) (p : Part) : NodeFrame p (taking c p) := by
  cases c with
  | status tag page => exact statusCommand_nodeFrame tag p page
  | clearStatus tag => exact clearStatusCommand_nodeFrame tag p
  | writeStage tag offset count words => exact writeStage_nodeFrame tag p _ _ words
  | transfer tag table index => exact transfer_nodeFrame tag p table index
  | readEntry tag table index offset => exact readEntryCommand_nodeFrame tag p table index offset
  | envelopePointer tag breakpoint => exact envelopePointer_nodeFrame tag p breakpoint
  | envelopeData tag count values => exact envelopeData_nodeFrame tag p _ values
  | lockSetup tag => exact lockSetupCommand_nodeFrame tag p
  | lock tag table => exact lockCommand_nodeFrame tag p (lockTable_nodeFrame p) 9 table
  | unlock tag table => exact lockCommand_nodeFrame tag p (unlockTable_nodeFrame p) 10 table
  | lockDown tag table => exact lockCommand_nodeFrame tag p (fun _ => .update) 11 table
  | setRestriction tag action value => exact setRestrictionCommand_nodeFrame tag p action value
  | readRecord tag index page => exact readRecordCommand_nodeFrame tag p index page
  | stable tag => exact stableCommand_nodeFrame tag p
  | wake tag => exact wakeCommand_nodeFrame tag p
  | restart tag lines => exact restartCommand_nodeFrame tag p lines
  | unknownCommand tag code => exact respond_nodeFrame tag code .unknown [] p
  | _ => exact .refl p

theorem acceptance_nodeFrame (c : Instr) (tag code : Byte) (p : Part) :
    NodeFrame p (acceptance c tag code p) := by
  rcases acceptance_cases c tag code p with ⟨-, e⟩ | ⟨-, -, e⟩ | ⟨-, -, e⟩ <;> rw [e]
  · exact .refl p
  · exact .trans .update (taking_nodeFrame c (disarm p))
  · exact .answered .update _ _ _ _

/-! ### Cells and openings (chapter 2) -/

/-- A store goes to the block of its function, or can be a command (R24, R183). -/
theorem deliver_nodeFrame (index : Fin 82) (fn : Fn) (kind : Kind) (r : SlotRecord) (p : Part) :
    NodeFrame p (deliver index fn kind r p) := by
  by_cases h : fn = .mgmtIn
  · subst h
    exact .ite (acceptCommand_eq r.payload p ▸ acceptance_nodeFrame _ _ _ p) (.refl p)
  · exact (deliver_unitFrame index h kind r p).nodeFrame

theorem storeCell_nodeFrame (g : Governing) (lane : Lane) (c : Cell) (p : Part) :
    NodeFrame p (storeCell g lane c p) := .trans .update (deliver_nodeFrame g.index g.entry.fn c.kind _ _)

theorem observeCell_nodeFrame (g : Governing) (lane : Lane) (c : Cell) (p : Part) :
    NodeFrame p (observeCell g lane c p) := by
  have stored := storeCell_nodeFrame g lane c p
  unfold observeCell pairCell
  split
  · exact .refl p
  · dsimp only
    split
    · exact .ite .update (.trans .update (storeCell_nodeFrame g lane c _))
    · exact .ite (.refl p) .update
  · exact .ite stored (.refl p)
  · exact .ite stored (.refl p)

theorem disposeCell_nodeFrame (g : Governing) (lane : Lane) (words : List Word) (c : Cell) (valid : Bool)
    (p : Part) : NodeFrame p (disposeCell g lane words c valid p).1 := by
  have outcome : ∀ o, NodeFrame p (setOutcome g lane o p) := fun _ => .update
  have observed : NodeFrame p (observeCell g lane c (setOutcome g lane .valid p)) :=
    (outcome .valid).trans (observeCell_nodeFrame g lane c _)
  cases h : appliedDisposition p.cab.state g.entry with
  | pass => exact disposeCell_pass _ _ _ _ h ▸ outcome _
  | observe => exact disposeCell_observe _ _ _ _ h ▸ .ite observed (outcome _)
  | take =>
    cases valid with
    | false => exact disposeCell_replaced _ _ _ (.inl h) ▸ outcome _
    | true =>
      cases ha : addressed c p with
      | false => exact disposeCell_take_other _ _ _ h ha ▸ outcome _
      | true => exact disposeCell_take_addressed _ _ _ h ha ▸ observed
  | rewrite =>
    cases valid with
    | false => exact disposeCell_replaced _ _ _ (.inr h) ▸ outcome _
    | true => exact disposeCell_rewrite _ _ _ h ▸ observed
  | own => exact disposeCell_own _ _ _ _ h ▸ .update

theorem emitOwned_nodeFrame (slot : Six) (g : Governing) (p : Part) : NodeFrame p (emitOwned slot g p) := by
  unfold emitOwned
  refine .ite (.refl p) ?_
  rw [driveIfUp_both]
  exact (emission_unitFrame g p).nodeFrame.trans .update

theorem openSlot_nodeFrame (slot : Six) (p : Part) : NodeFrame p (openSlot slot p) := by
  rcases openSlot_eq slot p with e | ⟨g, e⟩ <;> rw [e]
  · exact .update
  · exact .trans .update (emitOwned_nodeFrame slot g _)

theorem closeSlot_nodeFrame (p : Part) : NodeFrame p (closeSlot p) := closeSlot_eq p ▸ .update

theorem slotTimer_nodeFrame (p : Part) : NodeFrame p (slotTimer p) := by
  unfold slotTimer
  split
  · exact (closeSlot_nodeFrame p).trans (openSlot_nodeFrame _ _)
  · exact .refl p

/-! ### The line interface (chapter 1) -/

theorem endCycle_nodeFrame (p : Part) : NodeFrame p (endCycle p) := (closeSlot_nodeFrame p).trans .update

theorem decideLanes_nodeFrame (down up : Bool) (p : Part) : NodeFrame p (decideLanes down up p) :=
  .trans .update (presentLoss_unitFrame _ _).nodeFrame

theorem beaconStart_nodeFrame (lane : Lane) (cycle : Six) (order : List Work) (p : Part) :
    NodeFrame p (beaconStart lane cycle order p) := by
  have taken : ∀ q, NodeFrame q (takeBeacon lane cycle q) := fun q => .trans .update (openSlot_nodeFrame 0 _)
  exact ((endCycle_nodeFrame p).trans (.trans .update (taken _))).trans (presentCycle_unitFrame _ order _).nodeFrame

theorem substituteStart_nodeFrame (order : List Work) (p : Part) : NodeFrame p (substituteStart order p) :=
  ((endCycle_nodeFrame p).trans .update).trans (presentCycle_unitFrame _ order _).nodeFrame

theorem beaconArrival_nodeFrame (lane : Lane) (cycle : Six) (order : List Work) (p : Part) :
    NodeFrame p (beaconArrival lane cycle order p) := by
  have started := beaconStart_nodeFrame lane cycle order p
  exact .ite (.ite (.ite .update started) (.ite .update (.ite .update started))) started

theorem handOver_nodeFrame (lane : Lane) (words : List Word) (c : Cell) (valid : Bool) (p : Part) :
    NodeFrame p (handOver lane words c valid p).1 := by
  unfold handOver
  split
  · exact disposeCell_nodeFrame _ lane words c valid p
  · exact .refl p

theorem driveOut_nodeFrame (lane : Lane) {p : Part} {x : Part × Option (List Word)} (h : NodeFrame p x.1) :
    NodeFrame p (driveOut lane x) := by
  unfold driveOut
  split
  · exact h.trans (drive_nodeFrame _ _ _)
  · exact h

theorem cellArrivalIn_nodeFrame (lane : Lane) (words : List Word) (c : Cell) (intact : Bool) (p : Part) :
    NodeFrame p (cellArrivalIn lane words c intact p) := by
  have counted : ∀ good : Bool, NodeFrame p (if good then p else countError lane p) :=
    fun _ => .ite (.refl p) .update
  unfold cellArrivalIn slotArrival
  split
  · exact .ite (.trans .update (drive_nodeFrame _ _ _))
      (driveOut_nodeFrame lane (((counted _).trans .update).trans (handOver_nodeFrame lane words c _ _)))
  · exact (counted _).trans (drive_nodeFrame _ _ _)

theorem arrive_nodeFrame (lane : Lane) (words : List Word) (order : List Work) (p : Part) :
    NodeFrame p (arrive lane words order p) := by
  unfold arrive
  split
  · exact .ite ((beaconArrival_nodeFrame lane _ order p).trans (drive_nodeFrame _ _ _))
      (cellArrivalIn_nodeFrame lane words _ _ p)
  · exact cellArrivalIn_nodeFrame lane words _ _ p

/-! ### Every command -/

/-- A command acts on the part, stops nothing, and leaves the commands that wait. -/
theorem exec_onPart (c : Instr) (s : State) : ∃ f : Part → Part, exec c s = .next (s.onPart f) := by
  cases c <;> exact ⟨_, rfl⟩

theorem onPart_nodeFrame {f : Part → Part} {s t : State} (h : NodeFrame s.part (f s.part))
    (e : (Host.Outcome.next (s.onPart f) : Host.Outcome State Fault Refusal) = .next t) :
    NodeFrame s.part t.part := by
  cases e
  exact h

/-- An event inside a block, by the frame of its operation. -/
theorem when_nodeFrame {c : Part → Bool} {f : Part → Part} (h : ∀ p, UnitFrame p (f p)) {s t : State}
    (e : when c f s = .next t) : NodeFrame s.part t.part :=
  onPart_nodeFrame (UnitFrame.ite (h s.part) (.refl s.part)).nodeFrame e

theorem exec_management_nodeFrame {c : Instr} {header : Byte × Byte} (h : managementHeader c = some header)
    {s t : State} (e : exec c s = .next t) : NodeFrame s.part t.part := by
  rw [exec_management h] at e
  cases e
  exact acceptance_nodeFrame c header.1 header.2 s.part

/-- Every command but power-on reset keeps the node number and the level of RESET_N. -/
theorem exec_nodeFrame {c : Instr} {s t : State} (hreset : ∀ lines, c ≠ .powerOnReset lines)
    (e : exec c s = .next t) : NodeFrame s.part t.part := by
  cases c with
  | powerOnReset lines => exact absurd rfl (hreset lines)
  | cellArrival lane words lines order =>
    exact onPart_nodeFrame (.ite (.trans .update (arrive_nodeFrame lane words order _)) (.refl _)) e
  | substituteCycleStart lines order =>
    exact onPart_nodeFrame (.ite (.trans .update (substituteStart_nodeFrame order _)) (.refl _)) e
  | slotOpening => exact onPart_nodeFrame (slotTimer_nodeFrame _) e
  | laneDown => exact onPart_nodeFrame (decideLanes_nodeFrame _ _ _) e
  | laneUp => exact onPart_nodeFrame (decideLanes_nodeFrame _ _ _) e
  | otherCabTimeout => exact when_nodeFrame (takeView_unitFrame _) e
  | activationAttempt => exact when_nodeFrame attempt_unitFrame e
  | settleComplete => exact when_nodeFrame (fun _ => .update) e
  | brakeTimeout => exact when_nodeFrame (activationFails_unitFrame _ _ _) e
  | entryToActive => exact when_nodeFrame enterActive_unitFrame e
  | pendingExitTaken => exact when_nodeFrame takeExit_unitFrame e
  | scrubPassBegin => exact when_nodeFrame (fun _ => .trans .update (scrubTable_unitFrame _ _)) e
  | stabledExit => exact when_nodeFrame leaveStabled_unitFrame e
  | speedSourceStale => exact when_nodeFrame speedGoesStale_unitFrame e
  | speedLockAcquired => exact when_nodeFrame speedLocks_unitFrame e
  | selectionTimeout => exact when_nodeFrame (select_unitFrame 0) e
  | requestTimeout pos => exact when_nodeFrame (timeOut_unitFrame pos) e
  | doorStatusStale => exact when_nodeFrame (setRow_unitFrame (r := .doors) (by decide) 0) e
  | phaseEnd ch => exact when_nodeFrame (endChannelPhase_unitFrame ch) e
  | stepEnd ch => exact when_nodeFrame (endChannelStep_unitFrame ch) e
  | hornMinReached => exact when_nodeFrame (fun _ => .update) e
  | hornStuck => exact when_nodeFrame cutHorn_unitFrame e
  | transferCompletion => exact when_nodeFrame completeTransfer_unitFrame e
  | _ => exact exec_management_nodeFrame rfl e

/-- Settles O2: a command is an operation on the part, and all but power-on reset keep its node number and the
level of RESET_N. -/
theorem everyCommandCompletes : Obligations.EveryCommandCompletes := by
  intro c s
  obtain ⟨f, e⟩ := exec_onPart c s
  refine ⟨f s.part, e, fun hreset => ?_⟩
  obtain ⟨node, resetN⟩ := exec_nodeFrame hreset e
  exact ⟨node, resetN⟩

end Sys2Proof.Machine
end

section
/-! ## A step takes the command at the front of the queue: O1 -/

namespace Sys2Proof.Machine

/-- A command waits: it acts on the state with the queue's rest. -/
theorem step_of_pending_cons {s : State} {c : Instr} {rest : List Instr} (front : s.pending = c :: rest) :
    step s = exec c { s with pending := rest } := by
  unfold step
  rw [front]

/-- No command waits: the part idles (notes/assumptions/2.md). -/
theorem step_of_pending_nil {s : State} (empty : s.pending = []) : step s = .next s := by
  unfold step
  rw [empty]

/-- Settles O1, by the two forms of the queue: with the front command taken off again, the state is `s`. -/
theorem stepTakesTheFrontCommand : Obligations.StepTakesTheFrontCommand :=
  ⟨fun _ _ => step_of_pending_cons rfl, fun _ => step_of_pending_nil⟩

end Sys2Proof.Machine
end
